-- ==== Sys2Proof/Word.lean ====
section
/-!
DEFINITION. The machine's words and their plainest arithmetic: bytes, 32-bit words, 64-bit values, and the
sparse maps (sorted lists of keys and values) in which memories and signal areas are held.
-/
namespace Sys2Proof

/-- One byte. -/
abbrev Byte := BitVec 8
/-- One 32-bit word: a register of the module or of a core. -/
abbrev Word := BitVec 32
/-- One 64-bit value: a write signature, a tag, a stamp. -/
abbrev Dword := BitVec 64
/-- A lane of a triad, and the bank that belongs to it: 0 is A, 1 is B, 2 is C (R13). -/
abbrev Lane := Fin 3
/-- A core C0 to C15. -/
abbrev CoreId := Fin 16
/-- A triad T0 to T4. -/
abbrev TriadId := Fin 5
/-- A vital partition P0 to P4. -/
abbrev PartId := Fin 5
/-- A non-vital partition N0 to N7. -/
abbrev NvId := Fin 8
/-- A general register number of a core, G0 to G31. -/
abbrev Reg := Fin 32
/-- A vital output position: 0 to 23 are OUT_0 to OUT_23, 24 to 27 are SBC_0 to SBC_3 (R54, R264). -/
abbrev Chan := Fin 28

/-- A sparse map: keys strictly rising, no entry equal to what an unlisted key reads as. -/
abbrev SMap (α : Type) := List (Nat × α)

/-- The value at a key; an unlisted key reads `d`. -/
def SMap.get {α : Type} (d : α) : SMap α → Nat → α
  | [], _ => d
  | (k, v) :: m, a => if k = a then v else SMap.get d m a

/-- The map without a key. -/
def SMap.erase {α : Type} : SMap α → Nat → SMap α
  | [], _ => []
  | (k, v) :: m, a => if k = a then m else if a < k then (k, v) :: m else (k, v) :: SMap.erase m a

/-- The map with a key at a value, in its place in the rising order. -/
def SMap.put {α : Type} : SMap α → Nat → α → SMap α
  | [], a, x => [(a, x)]
  | (k, v) :: m, a, x =>
    if k = a then (a, x) :: m else if a < k then (a, x) :: (k, v) :: m else (k, v) :: SMap.put m a x

/-- Writing a value: writing what an unlisted key reads as removes the entry, so equal maps are equal lists. -/
def SMap.set {α : Type} [DecidableEq α] (d : α) (m : SMap α) (a : Nat) (x : α) : SMap α :=
  if x = d then SMap.erase m a else SMap.put m a x

/-- All keys of the map are above a bound and rise strictly, and no value is the default. -/
def SMap.okFrom {α : Type} [DecidableEq α] (d : α) : Nat → SMap α → Bool
  | _, [] => true
  | lo, (k, v) :: m => decide (lo ≤ k) && decide (v ≠ d) && SMap.okFrom d (k + 1) m

/-- The canonical form of a sparse map. -/
def SMap.wf {α : Type} [DecidableEq α] (d : α) (m : SMap α) : Bool := SMap.okFrom d 0 m

/-- The low 32 bits of a number, as a word. -/
def w32 (n : Nat) : Word := BitVec.ofNat 32 n

/-- A Bool as 0 or 1. -/
def b2n (b : Bool) : Nat := if b then 1 else 0

/-- A Bool as a 32-bit 0 or 1. -/
def b2w (b : Bool) : Word := if b then 1#32 else 0#32

end Sys2Proof
end

