-- ==== Sys2Proof/Machine/Types.lean ====
section
/-!
DEFINITION. The data that commands carry and that State holds: enumerations, the accepted image and its descriptors,
host descriptors, bus frames and what the hardware samples. Plain data only.
-/
namespace Sys2Proof.Machine

open Sys2Proof

/-- The variants of ID_CAPS.VARIANT (R5, R6). -/
inductive Variant where
  | trv16 | trv16b | trv10
  deriving DecidableEq, Repr

/-- SCN_MODE.MODE (R147). -/
inductive Mode where
  | start | stop | run | hold | safe | shutdown
  deriving DecidableEq, Repr

/-- The state of a core (R18, R63). -/
inductive CoreSt where
  | absent | lane | odd | kennel | reserve | unleashed
  deriving DecidableEq, Repr

/-- TRI_STATE_n.MODE (R61). -/
inductive TriMode where
  | notFormed | triad | pair | stopped | unleashed | idle
  deriving DecidableEq, Repr

/-- The class of an event (R458). -/
inductive Cls where
  | fatal | vital | nonvital
  deriving DecidableEq, Repr

/-- The outcome of a Kennel test or quick Kennel check (R87). -/
inductive KResult where
  | pass | fail | invalid
  deriving DecidableEq, Repr

/-- The class of an input sample (R249). -/
inductive InCls where
  | brk | open_ | closed
  deriving DecidableEq, Repr

/-- Substitution mode of a signal (R171): SAFE, or LAST for up to `hold` cycles. -/
inductive Subst where
  | safe
  | last (hold : Nat)
  deriving DecidableEq, Repr

/-- The name of one signal: Boolean or word, and its address (R164). -/
structure Sig where
  word : Bool
  addr : Nat
  deriving DecidableEq, Repr

/-- A Gazetteer entry: the path, and what stands there (R195, R196). `sig` is the signal of a signal path. For an
instance or variable, `part`, `ofs` and `bytes` say where its state words lie in the region. `hash` is the type hash
of an instance or the type code of a variable or signal, `library` marks a library block, `chart` an SFC chart, and `head`
is the region offset of an instance's header (R115). -/
structure GazEntry where
  path    : String
  sig     : Option Sig
  hash    : Word
  version : Nat
  inst    : Bool
  library : Bool
  chart   : Bool
  part    : PartId
  head    : Nat
  ofs     : Nat
  bytes   : Nat
  safe    : Word
  subst   : Subst
  vitalOut : Bool
  deriving DecidableEq, Repr

/-- A check job of a partition descriptor (R452): `bank` 0 is all three, 1 to 3 are A to C. -/
structure CheckJob where
  data : Nat
  len  : Nat
  exp  : Nat
  valid : Bool
  bank : Fin 4
  unit : Fin 8
  deriving DecidableEq, Repr

/-- A CAN area of a partition (R360): channel, region offset, capacity in entries. -/
structure CanArea where
  chan : Fin 4
  ofs  : Nat
  cap  : Nat
  deriving DecidableEq, Repr

/-- The descriptor of a vital partition (R102, R104, R115, R134, R158, R226, R236, R334, R452). -/
structure PartDesc where
  baseMib  : Nat
  sizeMib  : Nat
  progWords : Nat
  entry    : Nat
  rootIb   : Word
  nmiEntry : Nat
  isolated : Bool
  svyUse   : Bool
  svyOfs   : Nat
  svyLen   : Nat
  lostEntry : Nat
  lostInst : Word
  jobs     : List CheckJob
  canAreas : List CanArea
  deriving DecidableEq, Repr

/-- The descriptor of a non-vital partition (R19, R102, R360, R397). -/
structure NvDesc where
  core     : CoreId
  progWords : Nat
  entry    : Nat
  rootIb   : Word
  canAreas : List CanArea
  hostOfs  : Nat
  hostCap  : Nat
  deriving DecidableEq, Repr

/-- The image of a vital partition: descriptor, program area, initial instance data (word at region offset), initial
internal signals (R186) and the offsets of its instance headers (R194). -/
structure PartImage where
  desc    : PartDesc
  program : List Word
  data    : List (Nat × Word)
  ints    : List (Sig × Word)
  heads   : List Nat
  deriving DecidableEq, Repr

/-- The image of a non-vital partition: descriptor, region size, program area, initial instance data and the offsets of its
instance headers (R186 to R188, R194). -/
structure NvImage where
  desc    : NvDesc
  sizeMib : Nat
  program : List Word
  data    : List (Nat × Word)
  heads   : List Nat
  deriving DecidableEq, Repr

/-- Destinations that have at most one owner (R21): a signal, a Ubuno static slot or minislot of a bus, a CAN transmit
entry, a ring 1 status slot, a mirror block. -/
inductive Dest where
  | signal (s : Sig)
  | ubSlot (bus : Fin 2) (slot : Nat)
  | ubMini (bus : Fin 2) (mini : Nat)
  | canTx (chan : Fin 4) (entry : Nat)
  | status (slot : Nat)
  | mirror (block : Nat)
  deriving DecidableEq, Repr

/-- One row of the ownership table (R21). -/
structure OwnRow where
  dest  : Dest
  owner : PartId
  deriving DecidableEq, Repr

/-- A station of a bus's station table (R318). -/
structure Station where
  id     : Nat
  first  : Nat
  count  : Nat
  chanA  : Bool
  chanB  : Bool
  cold   : Bool
  dyn    : Bool
  lostN  : Nat
  owner  : PartId
  conf   : Word
  deriving DecidableEq, Repr

/-- A field object of a bus's or the rack's object map (R317, R409). -/
structure FieldObj where
  word   : Bool
  width  : Nat
  signed : Bool
  bit    : Nat
  byte   : Nat
  id     : Nat
  last   : Bool
  hold   : Nat
  signal : Nat
  deriving DecidableEq, Repr

/-- The seven layout registers of a Ubuno bus, as written (R309, R346). -/
structure UbLayout where
  cfg    : Word
  cyc    : Word
  static : Word
  dynseg : Word
  timing : Word
  sync   : Word
  cold   : Word
  deriving DecidableEq, Repr

/-- The part of the I/O descriptor for one Ubuno bus (R309, R317, R318, R327, R335). -/
structure UbDesc where
  layout   : UbLayout
  stations : List Station
  objects  : List FieldObj
  slotLen  : List (Nat × Nat)
  bitmapBase : Option Nat
  deriving DecidableEq, Repr

/-- The part of the I/O descriptor for one CAN channel (R361, R373): the RWB settings, and the non-vital owners of
transmit entries. -/
structure CanDesc where
  cfg : Word
  nbt : Word
  dbt : Word
  tdc : Word
  nvOwner : List (Nat × NvId)
  deriving DecidableEq, Repr

/-- A slot of the rack table (R409). -/
structure RackSlot where
  typ    : Word
  minVer : Word
  staleN : Nat
  objects : List FieldObj
  deriving DecidableEq, Repr

/-- The I/O descriptor of one local output channel (R260, R261, R263, R271). -/
structure OutDesc where
  vital  : Bool
  gang   : Fin 3
  silMode : Fin 3
  silMs  : Nat
  signal : Option Sig
  status : Option Nat
  deriving DecidableEq, Repr

/-- The I/O descriptor of a brake channel. -/
structure SbcDesc where
  signal : Option Sig
  status : Option Nat
  deriving DecidableEq, Repr

/-- The I/O descriptor of one local input: its DIO_IN_CFG word and its signal. -/
structure InDesc where
  cfg    : Word
  signal : Option Nat
  deriving DecidableEq, Repr

/-- The I/O descriptor of the accepted image. `interval` is the off-pulse test interval in seconds (R271, R272). -/
structure IoDesc where
  ins   : Vector InDesc 48
  outs  : Vector OutDesc 24
  sbcs  : Vector SbcDesc 4
  interval : Nat
  ub    : Vector UbDesc 2
  can   : Vector CanDesc 4
  rack  : List (Nat × RackSlot)
  twinWord : Option Nat
  nvStatus : List (Nat × Nat × NvId)
  deriving DecidableEq, Repr

/-- A feedback monitor of the safety descriptor (R286). -/
structure FbMon where
  input : Fin 48
  pol   : Bool
  tfb   : Nat
  deriving DecidableEq, Repr

/-- The brake test of one brake channel in the safety descriptor (R289). -/
structure BrkCfg where
  interval : Nat
  grace    : Nat
  tTest    : Nat
  torque   : Nat
  position : Nat
  thresh   : Nat
  permit   : Nat
  ack      : Nat
  testWord : Nat
  deriving DecidableEq, Repr

/-- The safety descriptor (R275, R280, R284, R286, R289). -/
structure SafetyDesc where
  hostReset : Bool
  resetA : Option (Fin 48)
  resetB : Option (Fin 48)
  disc   : Nat
  pulse  : Option Nat
  proof  : Vector Bool 48
  fb     : Vector (Option FbMon) 24
  brk    : Vector (Option BrkCfg) 4
  deriving DecidableEq, Repr

/-- An image: what the program store holds, what a change set carries for the whole station, or what runs. `chart` is
the table block of R214 as little-endian words, empty if the image has none. -/
structure Image where
  setId  : Word
  caps   : Word
  tcyc   : Option Nat
  safeExit : Option Bool
  parts  : Vector (Option PartImage) 5
  nvs    : Vector (Option NvImage) 8
  gaz    : List GazEntry
  owners : List OwnRow
  io     : IoDesc
  safety : SafetyDesc
  chart  : List Word
  crcMode : Vector (Fin 3) 8
  deriving DecidableEq, Repr

/-- The header of a change set (R187): sections as length and CRC-64/ECMA, region sizes of the partition images, vital and
non-vital. -/
structure OlcHeader where
  setId  : Word
  base   : Word
  caps   : Word
  sizes  : Vector (Option Nat) 5
  nvSizes : Vector (Option Nat) 8
  removed : BitVec 5
  sections : List (Nat × Dword)
  deriving DecidableEq, Repr

/-- A host descriptor of 32 bytes (R384). -/
structure Descriptor where
  opcode : Byte
  flags  : Byte
  cid    : BitVec 16
  seq    : Word
  arg0   : Dword
  arg1   : Dword
  tag    : Dword
  deriving DecidableEq, Repr

/-- What one comparator chain of an input measures: millivolts and microamperes (R249). -/
structure Reading where
  mv : Int
  ua : Int
  deriving DecidableEq, Repr

/-- What the module samples at a boundary and no other row delivers: the six readings of the commissioning key, each
ON for at least 50 ms (R534), and the output field supply in units of 10 mV (R542). -/
structure BoundaryIn where
  key   : Vector Bool 6
  volt  : Nat
  deriving DecidableEq, Repr

/-- What CHANNEL_JAM says of a Ubuno channel (R336): which one, and that its receiver has seen activity unbroken for longer
than 2 × frame_ut(254) in this bus cycle. -/
structure JamIn where
  chanB : Bool
  busy  : Bool
  deriving DecidableEq, Repr

/-- A transfer that a rack partner asks for (R403, R404): the offset it reads, the REQ lines of other slots, and that a read
of the module waits. -/
structure RackReadIn where
  ofs  : Nat
  reqs : BitVec 16
  own  : Bool
  deriving DecidableEq, Repr

/-- The result of a full self-test (R475, R483, R491): `conditions` false is INVALID_CONDITIONS, `secretsOk` and
`romOk` the secret and ROM checks, `blocks` the failing blocks by block ID, `cores` the failing cores. -/
structure SelfTest where
  conditions : Bool
  secretsOk  : Bool
  romOk      : Bool
  blocks : BitVec 32
  cores  : BitVec 16
  temp   : BitVec 16
  misr   : Dword
  deriving DecidableEq, Repr

/-- A Ubuno frame as a receiver sees it (R310 to R314): the channel, the start relative to the launch point in
microticks, whether every code group and the running disparity were right, the slot or minislot it was received in
(2,048 + the minislot's number), and the bytes between its delimiters: header, payload, CRC. -/
structure UbFrame where
  chanB   : Bool
  dev     : Int
  decoded : Bool
  place   : Nat
  bytes   : List Byte
  deriving DecidableEq, Repr

/-- A CAN frame (R359): the ID word, the DLC and flags, the payload. -/
structure CanFrame where
  id   : Word
  dlc  : BitVec 4
  brs  : Bool
  esi  : Bool
  data : List Byte
  deriving DecidableEq, Repr

/-- How a CAN transmission attempt ends (R364 to R367). -/
inductive CanEnd where
  | done
  | arbLost
  | error (err : Fin 16)
  deriving DecidableEq, Repr

/-- The answer to a rack read that the module initiates (R401, R402): the words read, or NACK. -/
inductive RackAnswer where
  | data (ws : List Word)
  | nack
  deriving DecidableEq, Repr

/-- What the scrubber judges: a 64-bit word of the banks, a 64-bit word of the Chart and route tables, one of the sections
of a staged change set; the word in which a signal of a partition's slice of the process image stands, by its key; a value
that the system area holds of a signal (0 the input, host request or NEXT place, 1 the copy taken at B, 2 the quality word),
an entry of the force table, or a record of the Gazetteer, the ownership table or the descriptors of the image that runs. -/
inductive ScrubTarget where
  | bank (ofs : Nat)
  | table (index : Nat)
  | staged (ofs : Nat)
  | slice (part : PartId) (key : Nat)
  | image (which : Fin 3) (key : Nat)
  | force (index : Nat)
  | gaz (index : Nat)
  | owner (index : Nat)
  | part (p : PartId)
  | nonvital (k : NvId)
  deriving DecidableEq, Repr

/-- The gate bits of CLK_GATE (R441): 0 to 3 CAN_0 to CAN_3, 4 UBA, 5 UBB, 6 rack bus, 7 input filter clock. -/
abbrev Gate := Fin 8

/-- A gate that is forced (R442), and that an access to its block is in progress. -/
structure GateForceIn where
  gate   : Gate
  access : Bool
  deriving DecidableEq, Repr

/-- What one lane's check of a change set finds in its staged copy (R194): whether the copy reads without fault, and the
image the sections spell. The section formats are not in the spec (R186), so the decoded image comes with the command. -/
structure LaneCheck where
  crcOk : Bool
  image : Image
  deriving DecidableEq, Repr

/-- The areas of the process image (R164). -/
inductive Area where
  | input | output | boundary | hostReq | internal
  deriving DecidableEq, Repr

end Sys2Proof.Machine
end

