-- ==== Sys2Proof/Syntax.lean ====
section
/-!
DEFINITION. The commands: one constructor per row of spec/opcode_table.json, with the row's operands. An operand
carries what comes from outside the block with the command: an address and a value, a descriptor, a frame, what a
terminal reads, the outcome of a test. What the block itself knows is in State.
-/
namespace Sys2Proof

open Sys2Proof.Machine

/-- The commands of the Roslos TRV-16. The `agree` of COMMIT_ARRIVAL, TRAP_REPORT_ARRIVAL and SURVEY_RESULT is false
when a voter lane's decision differs from the other two (R38, R238). -/
inductive Instr where
  /-- POWER_ON (R473). Power-on begins START: TB counts from 0 on IO, every output is de-energised and every transmitter is held off. -/
  | powerOn
  /-- HARDWARE_RESET (R473). A hardware reset begins START exactly as power-on does, with TB restarting from 0. -/
  | hardwareReset
  /-- VL_INTERRUPTION (R518). A loss of VL that stops the converters stops the logic, so every vital output falls and the module restarts as at power-on. -/
  | vlInterruption
  /-- XO_STABLE (R431). XO completes 65,536 cycles with the last monitor window in range, and the reference switch moves to XO. -/
  | xoStable
  /-- XO_START_TIMEOUT (R431). XO is not stable 100 ms after power-on, so START goes on from IO and CLK_XO_FAIL is raised. -/
  | xoStartTimeout
  /-- QUICK_CHECK_END (R482). The quick Kennel checks of a quick start end; failed cores go on to the full Kennel test. -/
  | quickCheckEnd (r : Vector KResult 16)
  /-- START_SELF_TEST_END (R483). The full self-test of a full start ends; a failing non-core block sends the module to SHUTDOWN and failing cores go to KENNEL. -/
  | startSelfTestEnd (r : SelfTest)
  /-- TEST_CONDITION_RETRY (R481). 1 s after a start test met INVALID_CONDITIONS, it is tried again. -/
  | testConditionRetry
  /-- IMAGE_LOAD_END (R473). The accepted image has been loaded into banks A, B and C and the rest of each bank cleared. -/
  | imageLoadEnd
  /-- IMAGE_CHECK_END (R473). The checks of the descriptors, tables, I/O descriptor, safety descriptor and check jobs end, deciding whether the image is valid. -/
  | imageCheckEnd
  /-- KEY_LOAD_END (R486). Key loading ends, HST_NONCE is drawn and HST_STAT.KEYS becomes 1, or the store is erased on a key failure. -/
  | keyLoadEnd
  /-- START_END (R484). START ends at B of cycle 1: triads are formed and the mode becomes RUN or STOP. -/
  | startEnd (b : BoundaryIn)
  /-- TWIN_ROLE_TIMEOUT (R413). The module in position B sees no TW_ALIVE within 2 s and becomes ACTIVE. -/
  | twinRoleTimeout
  /-- BOUNDARY (R145). At each boundary B the module performs the ordered boundary actions, from the TB stamp to arming the watchdog. -/
  | boundary (b : BoundaryIn)
  /-- AGREE_END (R142). Agree ends after the boundary actions, and Solve starts in every partition that may run. -/
  | agreeEnd
  /-- WATCHDOG_EXPIRY (R157). At B + T_cyc, each vital partition without a released commit of kind 0x4 is in watchdog overrun. -/
  | watchdogExpiry
  /-- BUDGET_EXPIRY (R154). A partition's execution budget ends before its release, giving a budget overrun. -/
  | budgetExpiry (p : PartId)
  /-- NV_BUDGET_EXPIRY (R156). A non-vital partition reaches its budget, is cut, and the next partition on the core starts. -/
  | nvBudgetExpiry (k : NvId)
  /-- CREDIT_EXPIRY (R55). A channel's credit ends at the boundary ending cycle k + 1 and its code stops. -/
  | creditExpiry (ch : Chan)
  /-- COMMIT_ARRIVAL (R40). A lane's commit record reaches the voter and is matched against the others. -/
  | commitArrival (t : TriadId) (l : Lane) (agree : Bool)
  /-- TRAP_REPORT_ARRIVAL (R129). A lane's trap report reaches the voter and is voted with the commit records. -/
  | trapReportArrival (t : TriadId) (l : Lane) (agree : Bool)
  /-- LAG_WINDOW_EXPIRY (R41). A lag window ends without a matching record from the lane waited for. -/
  | lagWindowExpiry (t : TriadId)
  /-- HANDLER_BUDGET_EXPIRY (R462). A handling interval is still open when the 200 µs handler budget ends. -/
  | handlerBudgetExpiry (t : TriadId)
  /-- ENABLE_DISAGREEMENT (R53). One voter lane's enable line differs for more than 40 ns, raising VOTER_FAULT and stopping the triad. -/
  | enableDisagreement (t : TriadId)
  /-- DYN_CODE_READBACK_MISMATCH (R57). The drive line differs from the expected chips in three consecutive chip periods. -/
  | dynCodeReadbackMismatch (ch : Chan)
  /-- EMIT_END (R144). A partition's Emit ends and its buffers are made available to the outside world. -/
  | emitEnd (p : PartId)
  /-- HEEL_PASS_END (R74). A Heel full or catch-up pass ends and the next pass is started or waits. -/
  | heelPassEnd (t : TriadId)
  /-- PAIR_LIMIT_EXPIRY (R76). A triad has run as a pair for PAIR_LIMIT seconds, PAIR_EXPIRED is raised and it is stopped. -/
  | pairLimitExpiry (t : TriadId)
  /-- SCRUB_JUDGE (R80). The scrubber judges the three copies of a word and repairs or reports it. -/
  | scrubJudge (w : ScrubTarget)
  /-- KENNEL_TEST_END (R87). A Kennel test ends as pass, fail or INVALID_CONDITIONS. -/
  | kennelTestEnd (c : CoreId) (r : KResult)
  /-- QUICK_KENNEL_CHECK_END (R90). The quick Kennel checks of a leashed triad end. -/
  | quickKennelCheckEnd (t : TriadId) (r : Vector KResult 3)
  /-- KENNEL_RETRY_DUE (R87). 1 s after an INVALID_CONDITIONS outcome the core is tested again. -/
  | kennelRetryDue (c : CoreId)
  /-- RESERVE_RETEST_DUE (R85). A free reserve reaches RETEST hours of waiting and is re-tested in the Kennel. -/
  | reserveRetestDue (c : CoreId)
  /-- EVENT_DELIVERY (R466). The ERR block passes a queued event to ring 2 and ERR_LAST. -/
  | eventDelivery
  /-- LOG_UPDATE (R499). The hourly Logbook update adds the volatile counts to both copies. -/
  | logUpdate (ok0 ok1 : Bool)
  /-- LOG_HISTORY_WRITE (R506). A failure history entry is written to both copies for a FATAL event or a stopped triad. -/
  | logHistoryWrite
  /-- SURVEY_CLOSE_AT (R226). CLOSE_AT × 0.1 ms after B closes every open request queue. -/
  | surveyCloseAt
  /-- SURVEY_RESULT (R237). Two Survey lanes agree on a result, which is marked present and lets SVW return. -/
  | surveyResult (l : Lane) (t : TriadId) (index : Nat) (agree : Bool)
  /-- SURVEY_LAG_EXPIRY (R237). A Survey lane presents no matching result within LAG. -/
  | surveyLagExpiry (t : TriadId) (index : Nat)
  /-- OLC_CHECK_END (R194). The check of a change set ends with STAGED and OLC_STAGED, or with refusal and IDLE. -/
  | olcCheckEnd (v : Vector LaneCheck 3)
  /-- OLC_VERIFY_END (R201). Re-verification of the staged copies ends with WAITING or with STAGE_FAULT. -/
  | olcVerifyEnd (ok : Vector Bool 3)
  /-- OLC_WAIT_EXPIRY (R202). WAIT_LIMIT boundaries pass in WAITING and the set is discarded with OLC_ABANDONED. -/
  | olcWaitExpiry
  /-- OLC_ACCEPT_DONE (R206). The program store holds the active image and OLC_ACCEPT completes. -/
  | olcAcceptDone
  /-- OFF_PULSE_VISIT (R264). The test scheduler visits the next position on its grid and starts an off-pulse or skips it. -/
  | offPulseVisit
  /-- OFF_PULSE_VERDICT (R265). 166.67 µs after the start of an off-pulse the readback is sampled and the switch passes or fails. -/
  | offPulseVerdict (chains : Vector Bool 3) (coil : Bool)
  /-- OUT_OVERLOAD (R259). A load current above the limit switches the channel off and latches OVERLOAD. -/
  | outOverload (ch : Chan)
  /-- OUT_STUCK_ON (R258). A channel still reads ON 5 ms after its code stopped and the module enters SAFE. -/
  | outStuckOn (ch : Chan) (chains : Vector Bool 3) (current : Bool)
  /-- SBC_OPEN_LOAD (R268). An energised brake channel has coil current below 50 mA for 100 ms. -/
  | sbcOpenLoad (k : Fin 4)
  /-- SILENCE_TIMEOUT (R262). A non-vital channel's silence timer reaches SIL_MS and the channel takes its silence behaviour. -/
  | silenceTimeout (n : Fin 24)
  /-- BRAKE_TEST_ENERGISE_TIMEOUT (R267). An energise request has waited 5 ms on a brake test, which is aborted. -/
  | brakeTestEnergiseTimeout (k : Fin 4)
  /-- BRAKE_TEST_TIME_END (R291). A brake test reaches T_TEST and ends PASS or ABORTED. -/
  | brakeTestTimeEnd (k : Fin 4)
  /-- BRAKE_TEST_DUE (R290). The time since the last pass reaches the test interval and a test falls due. -/
  | brakeTestDue (k : Fin 4)
  /-- BRAKE_TEST_OVERDUE (R293). The interval plus grace time passes and the channel is latched TEST_FAIL. -/
  | brakeTestOverdue (k : Fin 4)
  /-- FEEDBACK_TIMEOUT (R287). Expected and observed contactor states disagree for T_FB and the channel is latched with FB_MISMATCH. -/
  | feedbackTimeout (n : Fin 24)
  /-- EXERCISE_EXPIRY (R295). An output exercise reaches its duration and ends. -/
  | exerciseExpiry
  /-- BUS_CYCLE_START (R306). A Ubuno bus cycle starts and BUS_CYC increments. -/
  | busCycleStart (bus : Fin 2)
  /-- UBUNO_FRAME_RECEIVED (R314). A Ubuno frame is received and judged valid or discarded. -/
  | ubunoFrameReceived (bus : Fin 2) (f : UbFrame)
  /-- UBUNO_SLOT_LAUNCH (R326). At a slot's launch point the module sends SYNC, STATIC, NULL or nothing. -/
  | ubunoSlotLaunch (bus : Fin 2) (slot : Nat)
  /-- DYNAMIC_FRAME_SEND (R329). Minislot m is reached and a released DYNAMIC request is sent or waits. -/
  | dynamicFrameSend (bus : Fin 2) (mini : Nat)
  /-- COLDSTART_LISTEN_END (R322). The coldstart listen time ends and the node yields or starts its claim. -/
  | coldstartListenEnd (bus : Fin 2)
  /-- COLDSTART_CLAIM_CYCLE_END (R322). A claim cycle ends and the node yields, backs off, advances the claim or becomes keeper.
  `lowerSeen` and `frameError` are what the receivers saw for which no UBUNO_FRAME_RECEIVED stands: a COLDSTART of a lower
  slot that ends with the cycle, and noise in a slot of R322 that ends in no frame. -/
  | coldstartClaimCycleEnd (bus : Fin 2) (lowerSeen frameError : Bool)
  /-- COLDSTART_BACKOFF_END (R322). The backoff after a collision ends and the node yields or claims again. -/
  | coldstartBackoffEnd (bus : Fin 2)
  /-- CHANNEL_JAM (R336). A channel is jammed for JAM_CYC cycles and is declared jammed. -/
  | channelJam (bus : Fin 2) (chan : JamIn)
  /-- CHANNEL_OK (R336). A jammed channel is not jammed for 16 cycles and is restored. -/
  | channelOk (bus : Fin 2) (chanB : Bool)
  /-- STATION_LOST (R333). A station misses LOST_N consecutive cycles and is lost. -/
  | stationLost (bus : Fin 2) (station : Nat)
  /-- WAYPOINT (R344). A waypoint fires at its offset, captures TB and signals its MSI-X vector. -/
  | waypoint (bus : Fin 2) (k : Fin 8)
  /-- SFP_CHANGE (R532). An SFP module is inserted, removed or reports TX_FAULT, making its channel usable or not. -/
  | sfpChange (bus : Fin 2) (chanB usable : Bool)
  /-- CAN_FRAME_RECEIVED (R358). A valid CAN frame completes and is stored in the receive buffer. -/
  | canFrameReceived (ch : Fin 4) (f : CanFrame) (sof : Nat)
  /-- CAN_TX_START (R363). With the bus idle, the channel offers its winning pending request and sends SOF, or removes a cancelled one. -/
  | canTxStart (ch : Fin 4)
  /-- CAN_TX_END (R364). An attempt ends TX_DONE, or lost arbitration or an error leads to a retry or a final status. -/
  | canTxEnd (ch : Fin 4) (e : CanEnd) (suspect : Bool)
  /-- CAN_ERROR_DETECTED (R356). A CAN error updates TEC and REC and may enter error passive or bus-off. -/
  | canErrorDetected (ch : Fin 4) (tx suspect : Bool) (dTec dRec : Nat)
  /-- CAN_INTEGRATION (R353). 11 recessive bits are seen and the channel takes part again. -/
  | canIntegration (ch : Fin 4)
  /-- CAN_BUS_OFF_RECOVERY (R356). 128 occurrences of 11 recessive bits end bus-off. -/
  | canBusOffRecovery (ch : Fin 4)
  /-- CAN_REQUEST_EXPIRY (R363). A pending request not in transmission expires at the boundary ending the cycle after its release. -/
  | canRequestExpiry (ch : Fin 4) (entry : Nat)
  /-- HOST_REQUEST_TIMEOUT (R174). TMO_ACT boundaries pass without an accepted ring 1 descriptor and the host request area takes substitute values. -/
  | hostRequestTimeout
  /-- RACK_READ (R404). A rack partner reads slot 0 and the module answers from the mirror or equalisation window, or with NACK. -/
  | rackRead (slot : Fin 16) (r : RackReadIn)
  /-- RACK_PARTNER_READ (R410). The module reads a partner's identification or input window. -/
  | rackPartnerRead (slot : Fin 16) (ofs : Nat) (a : RackAnswer)
  /-- PARTNER_PRESENT (R410). PRES_s is asserted for 10 ms and the slot becomes PRESENT. -/
  | partnerPresent (slot : Fin 16)
  /-- PARTNER_ABSENT (R411). PRES_s is deasserted for 1 ms and the slot becomes ABSENT with substitute values. -/
  | partnerAbsent (slot : Fin 16)
  /-- PARTNER_STALE (R410). LIFE is unchanged for STALE_N boundaries, or two reads NACK, and the partner becomes STALE. -/
  | partnerStale (slot : Fin 16)
  /-- TW_BND_PULSE (R415). The STANDBY measures its B against TW_BND and slews its TB to keep the lock. -/
  | twBndPulse (offsetNs : Int)
  /-- TWIN_DUAL_ACTIVE (R413). An ACTIVE module sees its partner's TW_ALIVE for 100 µs and the module in position B enters SAFE. -/
  | twinDualActive
  /-- TW_ALIVE_LOSS (R424). An equal STANDBY sees TW_ALIVE absent for 1 ms and prepares to take over. -/
  | twAliveLoss
  /-- TW_EMIT_PULSE (R422). The former ACTIVE sees TW_EMIT and starts the 1 ms end of its hold-over. -/
  | twEmitPulse
  /-- HOLD_OVER_END (R422). The former ACTIVE's hold-over of its outputs ends. -/
  | holdOverEnd
  /-- MONITOR_WINDOW (R432). A clock monitor window of 1,024 IO cycles ends with its XO count judged. -/
  | monitorWindow (count : Nat)
  /-- REFERENCE_SWITCH (R434). The reference switch completes on an edge of the incoming reference. -/
  | referenceSwitch
  /-- STOPPED_SOURCE_ESCAPE (R434). The outgoing reference shows no edge for 8 cycles and the switch completes anyway. -/
  | stoppedSourceEscape
  /-- IO_FAIL (R436). IO shows no edge for 8 XO cycles and the monitor is suspended. -/
  | ioFail
  /-- HOLDOVER_EXPIRY (R436). PLL-T has no reference for 1 ms, or loses lock for more than 10 µs, and CLK_TB_FAIL sends the module to SAFE. -/
  | holdoverExpiry
  /-- REFIN_LOST (R437). REFIN shows no edge for 10 µs or leaves ±100 ppm and the trim is held. -/
  | refinLost
  /-- PPS_EDGE (R437). A PPS edge stores TB in CLK_PPS_LO and CLK_PPS_HI. -/
  | ppsEdge
  /-- RSI_WINDOW (R445). A ring-speed window of 1,024 TB ticks ends and the index is updated. -/
  | rsiWindow (periods : Vector Nat 3)
  /-- GATE_CLOSE (R441). A block with a pending gate request signals idle and its gate closes. -/
  | gateClose (g : Gate)
  /-- GATE_FORCE (R442). A gate pending for 1,024 TB ticks is forced, the block reset and the access in progress ended. -/
  | gateForce (g : GateForceIn)
  /-- CRC_DMA_END (R450). A port DMA feeds its last byte, or stops on an ECC failure, and BUSY clears. -/
  | crcDmaEnd (u : Fin 8)
  /-- CRC_JOB_PASS_END (R454). A check job pass ends and its result is compared with the expected value. -/
  | crcJobPassEnd (u : Fin 8)
  /-- SHUTDOWN_DRAIN_END (R488). Every host completion is written, the Logbook is updated, the record is set RUNNING, secrets are cleared and the shut-down test starts. -/
  | shutdownDrainEnd (ok0 ok1 : Bool)
  /-- SHUTDOWN_TEST_END (R488). The shut-down self-test ends and the record is written with its result. -/
  | shutdownTestEnd (r : SelfTest)
  /-- LINK_DOWN (R377). The PCI Express link goes down: rings are disabled and the host link is lost. -/
  | linkDown
  /-- FUNCTION_LEVEL_RESET (R377). The host performs a Function Level Reset and the HST registers return to their reset values. -/
  | functionLevelReset
  /-- BUS_MASTER_DISABLE (R377). The host clears Bus Master Enable and the host link is lost. -/
  | busMasterDisable
  /-- PERST (R522). PERST# resets the endpoint with the effect of a host link loss on the rings. -/
  | perst
  /-- SQ_TAIL_DOORBELL (R380). A write of SQ_TAIL makes the module fetch descriptors up to the tail, or puts the ring in error. -/
  | sqTailDoorbell (r : Fin 8) (v : Word)
  /-- CQ_HEAD_DOORBELL (R381). A write of CQ_HEAD frees CQ entries. -/
  | cqHeadDoorbell (r : Fin 8) (v : Word)
  /-- COMPLETION_DELIVERY (R382). A completion waiting for CQ room is written once space is free and the vector is signalled. -/
  | completionDelivery (r : Fin 8)
  /-- RING_ENABLE (R379). Setting EN checks the bases and starts the ring with head, tail and phase reset. -/
  | ringEnable (r : Fin 8) (v : Word)
  /-- RING_DISABLE (R379). Clearing EN stops fetching at once and discards pending completions. -/
  | ringDisable (r : Fin 8) (v : Word)
  /-- ABSENT_UNIT_ACCESS (R3). A register access to an absent block or channel reads 0, is ignored and raises ABSENT_UNIT. -/
  | absentUnitAccess (ofs : Nat) (write : Option Word)
  /-- UNSUPPORTED_BAR0_ACCESS (R376). A BAR0 access that is not 32-bit and aligned is answered Unsupported Request or dropped. -/
  | unsupportedBar0Access (ofs size : Nat) (write : Bool)
  /-- REGISTER_WRITE (R10). A write to a register without a row of its own updates the field or shadow, or is ignored with CFG_WHILE_RUNNING. -/
  | registerWrite (bar2 : Bool) (ofs : Nat) (v : Word)
  /-- STATUS_CLEAR (R8). Writing 1 to a W1C capture or status bit clears it and re-arms the capture. -/
  | statusClear (ofs : Nat) (v : Word)
  /-- DYN_FAULT_CLEAR (R57). Writing 1 to a TRI_DYN_FAULT bit clears the latch outside RUN, or is ignored in RUN. -/
  | dynFaultClear (v : Word)
  /-- OUTPUT_LATCH_CLEAR (R266). Writing 1 to a TEST_FAIL or OVERLOAD latch bit clears it outside RUN. -/
  | outputLatchClear (ofs : Nat) (v : Word)
  /-- CAN_RECOVER (R356). Writing RECOVER starts bus-off recovery. -/
  | canRecover (ch : Fin 4)
  /-- CAN_CLR_MAX (R373). Writing CLR_MAX sets CAN_n_RXFILL.MAX to 0. -/
  | canClrMax (ch : Fin 4)
  /-- XO_RETURN_REQUEST (R435). Writing CLK_CTRL.RETURN requests a return to XO at the next boundary. -/
  | xoReturnRequest
  /-- GATE_REQUEST (R441). Setting a CLK_GATE bit latches a gate request. -/
  | gateRequest (g : Gate)
  /-- GATE_WITHDRAW (R441). Clearing a gate bit before the gate closes withdraws the request. -/
  | gateWithdraw (g : Gate)
  /-- GATE_REOPEN (R444). Clearing a closed gate's bit reopens it and the block restarts from reset. -/
  | gateReopen (g : Gate)
  /-- CRC_INIT (R450). Writing INIT sets the port's running value to its initial value. -/
  | crcInit (u : Fin 8)
  /-- CRC_GO (R450). Writing GO starts a port DMA over the bank bytes. -/
  | crcGo (u : Fin 8)
  /-- CRC_CHECK (R451). Writing CHECK compares RES with EXP once BUSY is 0. -/
  | crcCheck (u : Fin 8)
  /-- CRC_DATA (R450). A write to CRC_n_DATA feeds four bytes, or is dropped while BUSY. -/
  | crcData (u : Fin 8) (v : Word)
  /-- CRC_DATA_B (R450). A write to CRC_n_DATA_B feeds one byte, or is dropped while BUSY. -/
  | crcDataB (u : Fin 8) (v : Word)
  /-- SOLVE_MAX_RESET (R162). Writing SCN_SOLVE_MAX_n.RESET sets MAX to 0. -/
  | solveMaxReset (n : PartId)
  /-- ROUND_MAX_RESET (R245). Writing SVY_ROUND_MAX.RESET sets MAX to 0. -/
  | roundMaxReset
  /-- IDENTIFY (R392). Returns ID_CAPS, ID_FW and HST_NONCE at once. -/
  | identify (r : Fin 8) (d : Descriptor)
  /-- RUN_REQUEST (R147). A MODE_REQ for RUN, applied at the next boundary if its conditions hold. -/
  | runRequest (r : Fin 8) (d : Descriptor)
  /-- HOLD_REQUEST (R147). A MODE_REQ for HOLD, applied at the next boundary if COMM_EN is active. -/
  | holdRequest (r : Fin 8) (d : Descriptor)
  /-- STOP_REQUEST (R147). A MODE_REQ for STOP, applied at the next boundary. -/
  | stopRequest (r : Fin 8) (d : Descriptor)
  /-- SHUTDOWN_REQUEST (R147). A MODE_REQ for SHUTDOWN from STOP or SAFE, applied at the next boundary. -/
  | shutdownRequest (r : Fin 8) (d : Descriptor)
  /-- STEP (R153). A step request in HOLD makes the next cycle a stepped cycle. -/
  | step (r : Fin 8) (d : Descriptor)
  /-- RESET_ARM (R282). Arms a host reset and starts the commit interval. -/
  | resetArm (r : Fin 8) (d : Descriptor)
  /-- RESET_COMMIT (R282). Commits a host reset 1 to 3 s after the arm, or is refused. -/
  | resetCommit (r : Fin 8) (d : Descriptor)
  /-- TWIN_HANDOVER (R422). Requests a hand-over to an equal STANDBY at the next boundary. -/
  | twinHandover (r : Fin 8) (d : Descriptor)
  /-- NV_RESTART (R392). Restarts a core's non-vital partitions and frees their pages at the next boundary. -/
  | nvRestart (r : Fin 8) (d : Descriptor)
  /-- KEY_STORE (R390). Writes a key into the sealed store and its volatile slot. -/
  | keyStore (r : Fin 8) (d : Descriptor)
  /-- HREQ_SET (R394). Writes a host request signal, applied at the next Agree. -/
  | hreqSet (r : Fin 8) (d : Descriptor)
  /-- HREQ_SET_DIAG (R392). Writes a host request signal from ring 5 with COMM_EN active, without counting for the host timeout. -/
  | hreqSetDiag (r : Fin 8) (d : Descriptor)
  /-- LOG_READ (R507). DMA-writes Logbook bytes from an intact copy to host memory. -/
  | logRead (r : Fin 8) (d : Descriptor)
  /-- OLC_BEGIN (R193). Checks a change set header and allocates staging space. -/
  | olcBegin (r : Fin 8) (d : Descriptor)
  /-- OLC_DATA (R193). Writes up to 64 KiB of a section into the three banks by DMA. -/
  | olcData (r : Fin 8) (d : Descriptor)
  /-- OLC_END (R193). Starts the check of the received change set. -/
  | olcEnd (r : Fin 8) (d : Descriptor)
  /-- OLC_ACTIVATE (R201). Requests activation of the staged set and starts re-verification. -/
  | olcActivate (r : Fin 8) (d : Descriptor)
  /-- OLC_DISCARD (R193). Frees the staged set. -/
  | olcDiscard (r : Fin 8) (d : Descriptor)
  /-- OLC_ROLLBACK (R205). Requests activation of the rollback image. -/
  | olcRollback (r : Fin 8) (d : Descriptor)
  /-- OLC_ACCEPT (R206). Writes the active image to the program store and discards the rollback image. -/
  | olcAccept (r : Fin 8) (d : Descriptor)
  /-- OLC_QUERY (R193). Returns OLC_STAT and the plan registers. -/
  | olcQuery (r : Fin 8) (d : Descriptor)
  /-- FORCE_SET (R181). Sets or changes a force, effective at the next boundary. -/
  | forceSet (r : Fin 8) (d : Descriptor)
  /-- FORCE_CLEAR (R179). Removes a force at the next boundary. -/
  | forceClear (r : Fin 8) (d : Descriptor)
  /-- FORCE_LIST (R392). DMA-writes every force entry to host memory. -/
  | forceList (r : Fin 8) (d : Descriptor)
  /-- BRK_TEST_NOW (R290). Makes a brake test due at once. -/
  | brkTestNow (r : Fin 8) (d : Descriptor)
  /-- OUT_EXERCISE (R294). Requests an output exercise of one channel in STOP. -/
  | outExercise (r : Fin 8) (d : Descriptor)
  /-- EXERCISE_STOP (R295). Ends a running output exercise. -/
  | exerciseStop (r : Fin 8) (d : Descriptor)
  /-- NV_MSG (R397). Queues a message for a non-vital partition's host area. -/
  | nvMsg (r : Fin 8) (d : Descriptor)
  /-- ILLEGAL_INSTRUCTION (R107). An unassigned encoding traps with ILLEGAL. -/
  | illegalInstruction (c : CoreId) (word : Word)
  /-- ADD (R109). Gd := Ga + Gb modulo 2^32. -/
  | add (c : CoreId) (gd ga gb : Reg)
  /-- SUB (R109). Gd := Ga − Gb modulo 2^32. -/
  | sub (c : CoreId) (gd ga gb : Reg)
  /-- ADDS (R109). Saturating signed addition. -/
  | adds (c : CoreId) (gd ga gb : Reg)
  /-- SUBS (R109). Saturating signed subtraction. -/
  | subs (c : CoreId) (gd ga gb : Reg)
  /-- ADDUS (R109). Saturating unsigned addition. -/
  | addus (c : CoreId) (gd ga gb : Reg)
  /-- SUBUS (R109). Saturating unsigned subtraction. -/
  | subus (c : CoreId) (gd ga gb : Reg)
  /-- MUL (R109). Low 32 bits of the product. -/
  | mul (c : CoreId) (gd ga gb : Reg)
  /-- MULS (R109). Saturating signed product. -/
  | muls (c : CoreId) (gd ga gb : Reg)
  /-- MULH (R109). High 32 bits of the signed 64-bit product. -/
  | mulh (c : CoreId) (gd ga gb : Reg)
  /-- DIV (R111). Signed division truncated toward zero, trapping on a zero divisor. -/
  | div (c : CoreId) (gd ga gb : Reg)
  /-- DIVU (R111). Unsigned division, trapping on a zero divisor. -/
  | divu (c : CoreId) (gd ga gb : Reg)
  /-- REM (R111). Signed remainder, trapping on a zero divisor. -/
  | rem (c : CoreId) (gd ga gb : Reg)
  /-- REMU (R111). Unsigned remainder, trapping on a zero divisor. -/
  | remu (c : CoreId) (gd ga gb : Reg)
  /-- MIN (R109). Signed minimum. -/
  | min (c : CoreId) (gd ga gb : Reg)
  /-- MAX (R109). Signed maximum. -/
  | max (c : CoreId) (gd ga gb : Reg)
  /-- MINU (R109). Unsigned minimum. -/
  | minu (c : CoreId) (gd ga gb : Reg)
  /-- MAXU (R109). Unsigned maximum. -/
  | maxu (c : CoreId) (gd ga gb : Reg)
  /-- ABSS (R109). Saturating absolute value. -/
  | abss (c : CoreId) (gd ga : Reg)
  /-- AND (R109). Bitwise AND. -/
  | and (c : CoreId) (gd ga gb : Reg)
  /-- OR (R109). Bitwise OR. -/
  | or (c : CoreId) (gd ga gb : Reg)
  /-- XOR (R109). Bitwise XOR. -/
  | xor (c : CoreId) (gd ga gb : Reg)
  /-- ANDN (R109). Ga AND NOT Gb. -/
  | andn (c : CoreId) (gd ga gb : Reg)
  /-- ORN (R109). Ga OR NOT Gb. -/
  | orn (c : CoreId) (gd ga gb : Reg)
  /-- BNOT (R109). Gd := 1 if Ga = 0, else 0. -/
  | bnot (c : CoreId) (gd ga : Reg)
  /-- SLL (R109). Logical left shift by Gb[4:0]. -/
  | sll (c : CoreId) (gd ga gb : Reg)
  /-- SRL (R109). Logical right shift by Gb[4:0]. -/
  | srl (c : CoreId) (gd ga gb : Reg)
  /-- SRA (R109). Arithmetic right shift by Gb[4:0]. -/
  | sra (c : CoreId) (gd ga gb : Reg)
  /-- SLLI (R109). Logical left shift by an immediate amount. -/
  | slli (c : CoreId) (gd ga : Reg) (amount : Fin 32)
  /-- SRLI (R109). Logical right shift by an immediate amount. -/
  | srli (c : CoreId) (gd ga : Reg) (amount : Fin 32)
  /-- SRAI (R109). Arithmetic right shift by an immediate amount. -/
  | srai (c : CoreId) (gd ga : Reg) (amount : Fin 32)
  /-- SEQ (R109). Gd := 1 if Ga = Gb. -/
  | seq (c : CoreId) (gd ga gb : Reg)
  /-- SNE (R109). Gd := 1 if Ga ≠ Gb. -/
  | sne (c : CoreId) (gd ga gb : Reg)
  /-- SLT (R109). Signed less than. -/
  | slt (c : CoreId) (gd ga gb : Reg)
  /-- SLTU (R109). Unsigned less than. -/
  | sltu (c : CoreId) (gd ga gb : Reg)
  /-- SLE (R109). Signed less or equal. -/
  | sle (c : CoreId) (gd ga gb : Reg)
  /-- SLEU (R109). Unsigned less or equal. -/
  | sleu (c : CoreId) (gd ga gb : Reg)
  /-- ADDI (R108). Gd := Ga + IMM modulo 2^32. -/
  | addi (c : CoreId) (gd ga : Reg) (imm : BitVec 16)
  /-- ADDIS (R108). Gd := sat32(Ga + IMM). -/
  | addis (c : CoreId) (gd ga : Reg) (imm : BitVec 16)
  /-- ANDI (R108). AND with the zero-extended immediate. -/
  | andi (c : CoreId) (gd ga : Reg) (imm : BitVec 16)
  /-- ORI (R108). OR with the zero-extended immediate. -/
  | ori (c : CoreId) (gd ga : Reg) (imm : BitVec 16)
  /-- XORI (R108). XOR with the zero-extended immediate. -/
  | xori (c : CoreId) (gd ga : Reg) (imm : BitVec 16)
  /-- LUI (R108). Gd := IMM << 16. -/
  | lui (c : CoreId) (gd : Reg) (imm : BitVec 16)
  /-- SLTI (R108). Signed compare with the immediate. -/
  | slti (c : CoreId) (gd ga : Reg) (imm : BitVec 16)
  /-- SLTIU (R108). Unsigned compare with the sign-extended immediate. -/
  | sltiu (c : CoreId) (gd ga : Reg) (imm : BitVec 16)
  /-- BEQ (R108). Branch if Ga = Gb. -/
  | beq (c : CoreId) (ga gb : Reg) (offset : BitVec 16)
  /-- BNE (R108). Branch if Ga ≠ Gb. -/
  | bne (c : CoreId) (ga gb : Reg) (offset : BitVec 16)
  /-- BLT (R108). Branch if Ga < Gb signed. -/
  | blt (c : CoreId) (ga gb : Reg) (offset : BitVec 16)
  /-- BGE (R108). Branch if Ga ≥ Gb signed. -/
  | bge (c : CoreId) (ga gb : Reg) (offset : BitVec 16)
  /-- BLTU (R108). Branch if Ga < Gb unsigned. -/
  | bltu (c : CoreId) (ga gb : Reg) (offset : BitVec 16)
  /-- BGEU (R108). Branch if Ga ≥ Gb unsigned. -/
  | bgeu (c : CoreId) (ga gb : Reg) (offset : BitVec 16)
  /-- LW (R108). Loads a word at Ga + IMM. -/
  | lw (c : CoreId) (gd ga : Reg) (imm : BitVec 16)
  /-- LH (R108). Loads a sign-extended halfword. -/
  | lh (c : CoreId) (gd ga : Reg) (imm : BitVec 16)
  /-- LHU (R108). Loads a zero-extended halfword. -/
  | lhu (c : CoreId) (gd ga : Reg) (imm : BitVec 16)
  /-- LB (R108). Loads a sign-extended byte. -/
  | lb (c : CoreId) (gd ga : Reg) (imm : BitVec 16)
  /-- LBU (R108). Loads a zero-extended byte. -/
  | lbu (c : CoreId) (gd ga : Reg) (imm : BitVec 16)
  /-- LWI (R119). Loads a word at IB + IMM. -/
  | lwi (c : CoreId) (gd : Reg) (imm : BitVec 16)
  /-- SW (R108). Stores a word at Ga + IMM, a commit point in a device window. -/
  | sw (c : CoreId) (gs ga : Reg) (imm : BitVec 16)
  /-- SH (R108). Stores a halfword at Ga + IMM. -/
  | sh (c : CoreId) (gs ga : Reg) (imm : BitVec 16)
  /-- SB (R108). Stores a byte at Ga + IMM. -/
  | sb (c : CoreId) (gs ga : Reg) (imm : BitVec 16)
  /-- SWI (R119). Stores a word at IB + IMM, trapping on the header. -/
  | swi (c : CoreId) (gs : Reg) (imm : BitVec 16)
  /-- JMP (R108). PC := TARGET. -/
  | jmp (c : CoreId) (target : BitVec 22)
  /-- CALL (R116). Pushes the return PC and IB, sets IB and jumps to the target. -/
  | call (c : CoreId) (gi : Reg) (target : BitVec 22)
  /-- CALLR (R116). Calls through a register target. -/
  | callr (c : CoreId) (gi ga : Reg)
  /-- JMPR (R110). PC := Ga[21:0]. -/
  | jmpr (c : CoreId) (ga : Reg)
  /-- RET (R117). Returns from a call with a commit of kind 0x2, or ends Solve with a commit of kind 0x4. -/
  | ret (c : CoreId)
  /-- LDW (R108). Loads a word signal. -/
  | ldw (c : CoreId) (g : Reg) (addr : BitVec 19)
  /-- STW (R114). Stores a word signal, a commit point in the output or boundary area. -/
  | stw (c : CoreId) (g : Reg) (addr : BitVec 19)
  /-- LDB (R108). Loads a Boolean signal. -/
  | ldb (c : CoreId) (g : Reg) (addr : BitVec 23)
  /-- LDBN (R108). Loads the inverse of a Boolean signal. -/
  | ldbn (c : CoreId) (g : Reg) (addr : BitVec 23)
  /-- STB (R114). Stores a Boolean signal. -/
  | stb (c : CoreId) (g : Reg) (addr : BitVec 23)
  /-- STBN (R114). Stores the inverse of a Boolean value as a signal. -/
  | stbn (c : CoreId) (g : Reg) (addr : BitVec 23)
  /-- LDBX (R112). Loads a Boolean signal at an indexed address. -/
  | ldbx (c : CoreId) (g ga : Reg)
  /-- STBX (R114). Stores a Boolean signal at an indexed address. -/
  | stbx (c : CoreId) (g ga : Reg)
  /-- LDWX (R112). Loads a word signal at an indexed address. -/
  | ldwx (c : CoreId) (g ga : Reg)
  /-- STWX (R114). Stores a word signal at an indexed address. -/
  | stwx (c : CoreId) (g ga : Reg)
  /-- LDQ (R170). Loads the quality word of a Boolean signal. -/
  | ldq (c : CoreId) (g ga : Reg)
  /-- LDWQ (R170). Loads the quality word of a word signal. -/
  | ldwq (c : CoreId) (g ga : Reg)
  /-- RDB (R121). Reads a boundary value by selector. -/
  | rdb (c : CoreId) (gd : Reg) (sel : Fin 32)
  /-- RDT (R122). Reads the live TB in a non-vital partition, and traps in a vital one. -/
  | rdt (c : CoreId) (gd : Reg) (sel : Fin 32)
  /-- SVQ (R123). Appends a word to the triad's Survey request queue as a commit point. -/
  | svq (c : CoreId) (gd ga : Reg)
  /-- SVW (R124). Presents a close mark and waits for a voted Survey result word. -/
  | svw (c : CoreId) (gd ga : Reg) (imm : BitVec 16)
  /-- RDE (R465). Reads the code of the event being handled. -/
  | rde (c : CoreId) (gd : Reg)
  /-- RETN (R134). Returns from the NMI handler and reports a RETN marker to the voter. -/
  | retn (c : CoreId)
  /-- ENTER (R118). Checks the instance type hash at IB. -/
  | enter (c : CoreId) (ga : Reg)
  /-- ASSERT (R110). Traps with ASSERT_FAIL if Ga = 0. -/
  | assert (c : CoreId) (ga : Reg)
  /-- DEPTH (R110). Reads the call stack depth. -/
  | depth (c : CoreId) (gd : Reg)
  /-- RDIB (R110). Reads IB. -/
  | rdib (c : CoreId) (gd : Reg)
  /-- INPUT_FILTER_SAMPLE (R250). At each sample of the input filter clock every chain classes its input and advances its debounce or counter filter. -/
  | inputFilterSample (rd : Vector (Vector Reading 3) 48)
  /-- CHIP_BOUNDARY (R54). At each TB tick that is a multiple of 8,333 a channel's code starts, restarts seeded again, or sends its next chip. -/
  | chipBoundary
  /-- OUTPUT_TERMINAL_CHANGE (R269). The voted terminal readback of an output changes between ON and OFF, updating DIO_OUT_ON and the switching count. -/
  | outputTerminalChange (ch : Chan) (high low : Vector Int 3) (coilMa : Nat)
  /-- LINK_UP (R377). The PCI Express link comes up or Bus Master Enable is set, and HST_STAT.LINK becomes 1. -/
  | linkUp
  /-- HOST_DMA_END (R391). A DMA read or write to host memory for a command completes or fails, and the command completes OK, DMA_ERROR or PAYLOAD_CRC. -/
  | hostDmaEnd (r : Fin 8) (sqIdx : Nat) (ok : Bool) (bytes : List Byte) (hdr : OlcHeader)
  /-- SEALED_STORE_WRITE_END (R390). The sealed key store holds the new key and KEY_STORE completes. -/
  | sealedStoreWriteEnd
  /-- IO_EDGES_RETURN (R436). A failed IO shows edges again, IO_OK returns and the clock monitor resumes its windows. -/
  | ioEdgesReturn
  /-- REFIN_LOCK (R437). REFIN has been present and within ±100 ppm for a second, REF_LOCK becomes 1 and steering may begin. -/
  | refinLock (ofs : BitVec 16)
  /-- PPS_TIMEOUT (R437). No PPS edge arrives for 1.1 s and CLK_STAT.PPS_OK clears. -/
  | ppsTimeout
  /-- HISTOGRAM_SAMPLE (R504). Once per second and once per minute the ring-speed, temperature and minute counters of the Logbook are sampled. -/
  | histogramSample (temp : Option (BitVec 16))
  deriving DecidableEq, Repr

end Sys2Proof
end

