-- ==== Sys2Proof/Decode.lean ====
section
/-!
DEFINITION. Decoding. The command table gives no row any bits, so `decodeTableWord` spells no command. The instruction
words of the Itrel cores are decoded and encoded here by the formats of R106 to R110.
-/
namespace Sys2Proof

open Sys2Proof.Machine

/-- The command a table word spells: no row of spec/opcode_table.json has bits. -/
def decodeTableWord (_nbits _w : Nat) : Option Instr := none

/-- The field of an instruction word from bit `lo`, `w` bits wide, as a number. -/
def field (x : Word) (lo w : Nat) : Nat := x.toNat / 2 ^ lo % 2 ^ w

/-- The field as a bit vector. -/
def fieldBv (x : Word) (lo w : Nat) : BitVec w := BitVec.ofNat w (field x lo w)

/-- The register field of an instruction word at bit `lo`. -/
def regField (x : Word) (lo : Nat) : Reg := Fin.ofNat 32 (field x lo 5)

/-- Major opcode 0x00: arithmetic and logic by FUNC (R109); `none` for a FUNC not assigned or a field that must be
zero and is not. -/
def decodeAlu (c : CoreId) (x : Word) : Option Instr :=
  let d := regField x 21
  let a := regField x 16
  let b := regField x 11
  let one := fun (i : Instr) => if b = 0 then some i else none
  match field x 0 11 with
  | 0x001 => some (.add c d a b)
  | 0x002 => some (.sub c d a b)
  | 0x003 => some (.adds c d a b)
  | 0x004 => some (.subs c d a b)
  | 0x005 => some (.addus c d a b)
  | 0x006 => some (.subus c d a b)
  | 0x007 => some (.mul c d a b)
  | 0x008 => some (.muls c d a b)
  | 0x009 => some (.mulh c d a b)
  | 0x00A => some (.div c d a b)
  | 0x00B => some (.divu c d a b)
  | 0x00C => some (.rem c d a b)
  | 0x00D => some (.remu c d a b)
  | 0x00E => some (.min c d a b)
  | 0x00F => some (.max c d a b)
  | 0x010 => some (.minu c d a b)
  | 0x011 => some (.maxu c d a b)
  | 0x012 => one (.abss c d a)
  | 0x020 => some (.and c d a b)
  | 0x021 => some (.or c d a b)
  | 0x022 => some (.xor c d a b)
  | 0x023 => some (.andn c d a b)
  | 0x024 => some (.orn c d a b)
  | 0x025 => one (.bnot c d a)
  | 0x030 => some (.sll c d a b)
  | 0x031 => some (.srl c d a b)
  | 0x032 => some (.sra c d a b)
  | 0x033 => some (.slli c d a b)
  | 0x034 => some (.srli c d a b)
  | 0x035 => some (.srai c d a b)
  | 0x040 => some (.seq c d a b)
  | 0x041 => some (.sne c d a b)
  | 0x042 => some (.slt c d a b)
  | 0x043 => some (.sltu c d a b)
  | 0x044 => some (.sle c d a b)
  | 0x045 => some (.sleu c d a b)
  | _ => none

/-- Major opcode 0x01: control, signals and system by FUNC (R110); a field that the Operands column does not name must
be zero. -/
def decodeSys (c : CoreId) (x : Word) : Option Instr :=
  let d := regField x 21
  let a := regField x 16
  let b := regField x 11
  let keep := fun (ok : Bool) (i : Instr) => if ok then some i else none
  match field x 0 11 with
  | 0x001 => keep (d = 0 && a = 0 && b = 0) (.ret c)
  | 0x002 => keep (b = 0) (.callr c d a)
  | 0x003 => keep (d = 0 && b = 0) (.jmpr c a)
  | 0x004 => keep (a = 0) (.rdb c d b)
  | 0x005 => keep (a = 0) (.rdt c d b)
  | 0x006 => keep (b = 0) (.ldbx c d a)
  | 0x007 => keep (b = 0) (.stbx c d a)
  | 0x008 => keep (b = 0) (.ldwx c d a)
  | 0x009 => keep (b = 0) (.stwx c d a)
  | 0x00A => keep (b = 0) (.ldq c d a)
  | 0x00B => keep (b = 0) (.ldwq c d a)
  | 0x00C => keep (b = 0) (.svq c d a)
  | 0x00D => keep (a = 0 && b = 0) (.rde c d)
  | 0x00E => keep (d = 0 && a = 0 && b = 0) (.retn c)
  | 0x00F => keep (d = 0 && b = 0) (.enter c a)
  | 0x010 => keep (d = 0 && b = 0) (.assert c a)
  | 0x011 => keep (a = 0 && b = 0) (.depth c d)
  | 0x012 => keep (a = 0 && b = 0) (.rdib c d)
  | _ => none

/-- Formats I and B by major opcode (R106, R108). -/
def decodeImm (c : CoreId) (x : Word) : Option Instr :=
  let d := regField x 21
  let a := regField x 16
  let imm := fieldBv x 0 16
  let one := fun (i : Instr) => if a = 0 then some i else none
  match field x 26 6 with
  | 0x02 => some (.addi c d a imm)
  | 0x03 => some (.addis c d a imm)
  | 0x04 => some (.andi c d a imm)
  | 0x05 => some (.ori c d a imm)
  | 0x06 => some (.xori c d a imm)
  | 0x07 => one (.lui c d imm)
  | 0x08 => some (.slti c d a imm)
  | 0x09 => some (.sltiu c d a imm)
  | 0x0A => some (.beq c d a imm)
  | 0x0B => some (.bne c d a imm)
  | 0x0C => some (.blt c d a imm)
  | 0x0D => some (.bge c d a imm)
  | 0x0E => some (.bltu c d a imm)
  | 0x0F => some (.bgeu c d a imm)
  | 0x10 => some (.lw c d a imm)
  | 0x11 => some (.lh c d a imm)
  | 0x12 => some (.lhu c d a imm)
  | 0x13 => some (.lb c d a imm)
  | 0x14 => some (.lbu c d a imm)
  | 0x15 => one (.lwi c d imm)
  | 0x16 => some (.svw c d a imm)
  | 0x18 => some (.sw c d a imm)
  | 0x19 => some (.sh c d a imm)
  | 0x1A => some (.sb c d a imm)
  | 0x1B => one (.swi c d imm)
  | _ => none

/-- Formats J, W and S (R106, R108). -/
def decodeWide (c : CoreId) (x : Word) : Option Instr :=
  match field x 28 4 with
  | 0x8 =>
    let gi := regField x 22
    let target := fieldBv x 0 22
    if field x 27 1 = 1 then some (.call c gi target) else if gi = 0 then some (.jmp c target) else none
  | 0xA =>
    match field x 24 4 with
    | 0 => some (.ldw c (regField x 19) (fieldBv x 0 19))
    | 1 => some (.stw c (regField x 19) (fieldBv x 0 19))
    | _ => none
  | 0xC => some (.ldb c (regField x 23) (fieldBv x 0 23))
  | 0xD => some (.ldbn c (regField x 23) (fieldBv x 0 23))
  | 0xE => some (.stb c (regField x 23) (fieldBv x 0 23))
  | 0xF => some (.stbn c (regField x 23) (fieldBv x 0 23))
  | _ => none

/-- The instruction of an Itrel word on a core; an encoding that R106 to R110 do not assign is the illegal instruction
(R107). -/
def decodeItrel (c : CoreId) (x : Word) : Instr :=
  let r := if field x 26 6 = 0 then decodeAlu c x
    else if field x 26 6 = 1 then decodeSys c x
    else if field x 26 6 < 0x20 then decodeImm c x
    else decodeWide c x
  r.getD (.illegalInstruction c x)

/-- The word of a T-format instruction (R106). -/
def encT (maj : Nat) (d a b : Reg) (func : Nat) : Word :=
  BitVec.ofNat 32 (maj * 2 ^ 26 + d.val * 2 ^ 21 + a.val * 2 ^ 16 + b.val * 2 ^ 11 + func)

/-- The word of an I- or B-format instruction (R106). -/
def encI (maj : Nat) (d a : Reg) (imm : BitVec 16) : Word :=
  BitVec.ofNat 32 (maj * 2 ^ 26 + d.val * 2 ^ 21 + a.val * 2 ^ 16 + imm.toNat)

/-- The word of a J-format instruction (R106). -/
def encJ (call : Nat) (gi : Reg) (target : BitVec 22) : Word :=
  BitVec.ofNat 32 (8 * 2 ^ 28 + call * 2 ^ 27 + gi.val * 2 ^ 22 + target.toNat)

/-- The word of a W-format instruction (R106). -/
def encW (op : Nat) (g : Reg) (addr : BitVec 19) : Word :=
  BitVec.ofNat 32 (10 * 2 ^ 28 + op * 2 ^ 24 + g.val * 2 ^ 19 + addr.toNat)

/-- The word of an S-format instruction (R106). -/
def encS (store n : Nat) (g : Reg) (addr : BitVec 23) : Word :=
  BitVec.ofNat 32 (3 * 2 ^ 30 + store * 2 ^ 29 + n * 2 ^ 28 + g.val * 2 ^ 23 + addr.toNat)

/-- The word of a core instruction (R106 to R110); `none` for a command that is no core instruction. -/
def encode : Instr → Option Word
  | .illegalInstruction _ w => some w
  | .add _ d a b => some (encT 0 d a b 0x001)
  | .sub _ d a b => some (encT 0 d a b 0x002)
  | .adds _ d a b => some (encT 0 d a b 0x003)
  | .subs _ d a b => some (encT 0 d a b 0x004)
  | .addus _ d a b => some (encT 0 d a b 0x005)
  | .subus _ d a b => some (encT 0 d a b 0x006)
  | .mul _ d a b => some (encT 0 d a b 0x007)
  | .muls _ d a b => some (encT 0 d a b 0x008)
  | .mulh _ d a b => some (encT 0 d a b 0x009)
  | .div _ d a b => some (encT 0 d a b 0x00A)
  | .divu _ d a b => some (encT 0 d a b 0x00B)
  | .rem _ d a b => some (encT 0 d a b 0x00C)
  | .remu _ d a b => some (encT 0 d a b 0x00D)
  | .min _ d a b => some (encT 0 d a b 0x00E)
  | .max _ d a b => some (encT 0 d a b 0x00F)
  | .minu _ d a b => some (encT 0 d a b 0x010)
  | .maxu _ d a b => some (encT 0 d a b 0x011)
  | .abss _ d a => some (encT 0 d a 0 0x012)
  | .and _ d a b => some (encT 0 d a b 0x020)
  | .or _ d a b => some (encT 0 d a b 0x021)
  | .xor _ d a b => some (encT 0 d a b 0x022)
  | .andn _ d a b => some (encT 0 d a b 0x023)
  | .orn _ d a b => some (encT 0 d a b 0x024)
  | .bnot _ d a => some (encT 0 d a 0 0x025)
  | .sll _ d a b => some (encT 0 d a b 0x030)
  | .srl _ d a b => some (encT 0 d a b 0x031)
  | .sra _ d a b => some (encT 0 d a b 0x032)
  | .slli _ d a n => some (encT 0 d a n 0x033)
  | .srli _ d a n => some (encT 0 d a n 0x034)
  | .srai _ d a n => some (encT 0 d a n 0x035)
  | .seq _ d a b => some (encT 0 d a b 0x040)
  | .sne _ d a b => some (encT 0 d a b 0x041)
  | .slt _ d a b => some (encT 0 d a b 0x042)
  | .sltu _ d a b => some (encT 0 d a b 0x043)
  | .sle _ d a b => some (encT 0 d a b 0x044)
  | .sleu _ d a b => some (encT 0 d a b 0x045)
  | .ret _ => some (encT 1 0 0 0 0x001)
  | .callr _ gi a => some (encT 1 gi a 0 0x002)
  | .jmpr _ a => some (encT 1 0 a 0 0x003)
  | .rdb _ d sel => some (encT 1 d 0 sel 0x004)
  | .rdt _ d sel => some (encT 1 d 0 sel 0x005)
  | .ldbx _ g a => some (encT 1 g a 0 0x006)
  | .stbx _ g a => some (encT 1 g a 0 0x007)
  | .ldwx _ g a => some (encT 1 g a 0 0x008)
  | .stwx _ g a => some (encT 1 g a 0 0x009)
  | .ldq _ g a => some (encT 1 g a 0 0x00A)
  | .ldwq _ g a => some (encT 1 g a 0 0x00B)
  | .svq _ d a => some (encT 1 d a 0 0x00C)
  | .rde _ d => some (encT 1 d 0 0 0x00D)
  | .retn _ => some (encT 1 0 0 0 0x00E)
  | .enter _ a => some (encT 1 0 a 0 0x00F)
  | .assert _ a => some (encT 1 0 a 0 0x010)
  | .depth _ d => some (encT 1 d 0 0 0x011)
  | .rdib _ d => some (encT 1 d 0 0 0x012)
  | .addi _ d a i => some (encI 0x02 d a i)
  | .addis _ d a i => some (encI 0x03 d a i)
  | .andi _ d a i => some (encI 0x04 d a i)
  | .ori _ d a i => some (encI 0x05 d a i)
  | .xori _ d a i => some (encI 0x06 d a i)
  | .lui _ d i => some (encI 0x07 d 0 i)
  | .slti _ d a i => some (encI 0x08 d a i)
  | .sltiu _ d a i => some (encI 0x09 d a i)
  | .beq _ a b o => some (encI 0x0A a b o)
  | .bne _ a b o => some (encI 0x0B a b o)
  | .blt _ a b o => some (encI 0x0C a b o)
  | .bge _ a b o => some (encI 0x0D a b o)
  | .bltu _ a b o => some (encI 0x0E a b o)
  | .bgeu _ a b o => some (encI 0x0F a b o)
  | .lw _ d a i => some (encI 0x10 d a i)
  | .lh _ d a i => some (encI 0x11 d a i)
  | .lhu _ d a i => some (encI 0x12 d a i)
  | .lb _ d a i => some (encI 0x13 d a i)
  | .lbu _ d a i => some (encI 0x14 d a i)
  | .lwi _ d i => some (encI 0x15 d 0 i)
  | .svw _ d a i => some (encI 0x16 d a i)
  | .sw _ g a i => some (encI 0x18 g a i)
  | .sh _ g a i => some (encI 0x19 g a i)
  | .sb _ g a i => some (encI 0x1A g a i)
  | .swi _ g i => some (encI 0x1B g 0 i)
  | .jmp _ t => some (encJ 0 0 t)
  | .call _ gi t => some (encJ 1 gi t)
  | .ldw _ g a => some (encW 0 g a)
  | .stw _ g a => some (encW 1 g a)
  | .ldb _ g a => some (encS 0 0 g a)
  | .ldbn _ g a => some (encS 0 1 g a)
  | .stb _ g a => some (encS 1 0 g a)
  | .stbn _ g a => some (encS 1 1 g a)
  | _ => none

end Sys2Proof
end

