-- ==== Sys2Proof/Machine/Crc.lean ====
section
/-!
DEFINITION. The four check-value algorithms (R29, R195, R310, R448) as byte-at-a-time register machines.
-/
namespace Sys2Proof.Machine

open Sys2Proof

/-- `k` shifts of an unreflected CRC register of width `n`. -/
def crcUp {n : Nat} (poly : BitVec n) : Nat → BitVec n → BitVec n
  | 0, c => c
  | k + 1, c => crcUp poly k (if c.msb then (c <<< 1) ^^^ poly else c <<< 1)

/-- `k` shifts of a reflected CRC register; `poly` is the reversed polynomial. -/
def crcDown {n : Nat} (poly : BitVec n) : Nat → BitVec n → BitVec n
  | 0, c => c
  | k + 1, c => crcDown poly k (if c.getLsbD 0 then (c >>> 1) ^^^ poly else c >>> 1)

/-- One byte into CRC-16/CCITT (R448). -/
def crc16Byte (c : BitVec 16) (b : Byte) : BitVec 16 := crcUp 0x1021#16 8 (c ^^^ (b.setWidth 16 <<< 8))

/-- One byte into CRC-32 (R310, R448). -/
def crc32Byte (c : Word) (b : Byte) : Word := crcDown 0xEDB88320#32 8 (c ^^^ b.setWidth 32)

/-- One byte into CRC-32C (R195, R448). -/
def crc32cByte (c : Word) (b : Byte) : Word := crcDown 0x82F63B78#32 8 (c ^^^ b.setWidth 32)

/-- One byte into CRC-64/ECMA (R29, R448). -/
def crc64Byte (c : Dword) (b : Byte) : Dword := crcUp 0x42F0E1EBA9EA3693#64 8 (c ^^^ (b.setWidth 64 <<< 56))

/-- CRC-64/ECMA of a byte sequence continued from a register value (R29). -/
def crc64From (c : Dword) (bs : List Byte) : Dword := bs.foldl crc64Byte c

/-- CRC-64/ECMA of a byte sequence from its initial value (R29). -/
def crc64 (bs : List Byte) : Dword := crc64From 0#64 bs

/-- CRC-32C of a byte sequence (R195). -/
def crc32c (bs : List Byte) : Word := (bs.foldl crc32cByte 0xFFFFFFFF#32) ^^^ 0xFFFFFFFF#32

/-- CRC-32 of a byte sequence (R310). -/
def crc32 (bs : List Byte) : Word := (bs.foldl crc32Byte 0xFFFFFFFF#32) ^^^ 0xFFFFFFFF#32

/-- CRC-16/CCITT of a byte sequence (R448). -/
def crc16 (bs : List Byte) : BitVec 16 := bs.foldl crc16Byte 0xFFFF#16

/-- The width of unit `u` in bits (R448). -/
def crcWidth (u : Fin 8) : Nat := if u.val < 2 then 16 else if u.val < 6 then 32 else 64

/-- The POLY code of unit `u` (R448). -/
def crcPoly (u : Fin 8) : Nat := u.val / 2 + 1

/-- The initial value of unit `u`'s running value (R448). -/
def crcInitOf (u : Fin 8) : Dword := if u.val < 2 then 0xFFFF#64 else if u.val < 6 then 0xFFFFFFFF#64 else 0#64

/-- The final XOR of unit `u` (R448). -/
def crcXorOf (u : Fin 8) : Dword := if u.val < 2 then 0#64 else if u.val < 6 then 0xFFFFFFFF#64 else 0#64

/-- The running value of unit `u` whose RES reads 0, as it does at reset (R457). -/
def crcResetOf (u : Fin 8) : Dword := crcXorOf u

/-- One byte into unit `u`'s running value (R448, R450). -/
def crcUnitByte (u : Fin 8) (c : Dword) (b : Byte) : Dword :=
  if u.val < 2 then (crc16Byte (c.setWidth 16) b).setWidth 64
  else if u.val < 4 then (crc32Byte (c.setWidth 32) b).setWidth 64
  else if u.val < 6 then (crc32cByte (c.setWidth 32) b).setWidth 64
  else crc64Byte c b

/-- A byte sequence into unit `u`'s running value. -/
def crcUnitFeed (u : Fin 8) (c : Dword) (bs : List Byte) : Dword := bs.foldl (crcUnitByte u) c

/-- What CRC_n_RES shows for a running value (R450). -/
def crcRes (u : Fin 8) (c : Dword) : Dword := c ^^^ crcXorOf u

/-- The check value of a byte sequence from INIT, as a check job computes it (R453). -/
def crcUnitOf (u : Fin 8) (bs : List Byte) : Dword := crcRes u (crcUnitFeed u (crcInitOf u) bs)

/-- The low bits of an expected value that unit `u` compares (R451). -/
def crcTrim (u : Fin 8) (x : Dword) : Dword :=
  if u.val < 2 then x &&& 0xFFFF#64 else if u.val < 6 then x &&& 0xFFFFFFFF#64 else x

/-- The `k` bytes of a number, least significant first. -/
def leBytes : Nat → Nat → List Byte
  | 0, _ => []
  | k + 1, x => BitVec.ofNat 8 x :: leBytes k (x / 256)

/-- The number that bytes spell, least significant first. -/
def ofLe : List Byte → Nat
  | [] => 0
  | b :: bs => b.toNat + 256 * ofLe bs

/-- The `k` bytes of a number, most significant first. -/
def beBytes (k x : Nat) : List Byte := (leBytes k x).reverse

/-- The number of a list of bytes, most significant first. -/
def ofBe (bs : List Byte) : Nat := ofLe bs.reverse

end Sys2Proof.Machine
end

