-- ==== Sys2Proof/Config.lean ====
section
/-!
DEFINITION. What one implementation or one build fixes and the spec leaves open: opaque constants, so that a claim
about them holds for every value. A free value that is drawn afresh is applied to a counter held in State.
-/
namespace Sys2Proof

/-- A free byte for ID_HWREV, which the manual does not list (R513). Log entry 5. -/
opaque Config.hwRevFree : Byte
/-- ID_HWREV of the module: from 0x01 (R513). -/
def Config.hwRev : Byte := if Config.hwRevFree = 0#8 then 1#8 else Config.hwRevFree
/-- A free number for the 64-bit module serial number, which the manual does not list (R513). Log entry 5. -/
opaque Config.serialFree : Dword
/-- The module serial number: never 0 (R513). -/
def Config.serial : Dword := if Config.serialFree = 0#64 then 1#64 else Config.serialFree
/-- ID_FW of the firmware release (R513). Log entry 5. -/
opaque Config.firmware : Word
/-- GUAR of the ring-speed calibration ROM (R445). Log entry 5. -/
opaque Config.rsiGuar : BitVec 16
/-- WIN_MIN of the ring-speed calibration ROM (R445). Log entry 5. -/
opaque Config.rsiWinMin : BitVec 16
/-- How far WIN_MAX lies above WIN_MIN: R480 speaks of a window from one to the other. Log entry 5. -/
opaque Config.rsiWinSpan : BitVec 16
/-- WIN_MAX of the ring-speed calibration ROM (R445), a field of 16 bits. -/
def Config.rsiWinMax : Nat := min 0xFFFF (Config.rsiWinMin.toNat + Config.rsiWinSpan.toNat)
/-- HST_NONCE as drawn from the random source at each START (R387, R486), by number of the draw. Log entry 6. -/
opaque Config.nonce : Nat → Dword
/-- The page of a partition's region in which the slice of the process image holds a signal: the spec gives no
offsets (R70, R72). Arguments: partition, word signal, signal address. Log entry 7. -/
opaque Config.imagePage : Nat → Bool → Nat → Nat
/-- The index, within a partition's region, of the page that holds a boundary signal's NEXT copy for the equaliser
(R416 gives no offset). Log entry 7. -/
opaque Config.boundaryPage : Nat → Bool → Nat → Nat
/-- The 4-byte place, within its page, of a signal in that slice or NEXT copy (R70, R416 give no offset). Log entry 7. -/
opaque Config.imagePlace : Nat → Bool → Nat → Nat
/-- A value that the spec leaves open after a step, by the number of the draw (State.freeDraws). Log entry 6. -/
opaque Config.freeWord : Nat → Word
/-- What a read of raw bytes finds at an offset of a bank's system area: the area holds the tables that State keeps, at the
same offsets in all three banks, and R14 gives no table a place in it. Arguments: what the area holds, bank offset. Log
entry 91. -/
opaque Config.sysByte {α : Type} : α → Nat → Byte
/-- Whether the word at an offset of a bank's system area is one of those that fail their ECC check, for the same want of
places. Arguments: the failing words by what they hold, word offset. Log entry 91. -/
opaque Config.sysFails {α : Type} : α → Nat → Bool
/-- The word of the door loop application's ROM code at a word index: the spec gives no listing (R296 to R298). Log entry 15. -/
opaque Config.dlaWord : Nat → Word

/-- What a LED shows in a state for which R535 has no column: the colour in bits 2 and 1, flashing in bit 0. Argument: which
LED. Log entry 109. -/
opaque Config.ledOpen : Nat → BitVec 3

end Sys2Proof
end

