-- ==== Sys2Proof/Machine/Blocks.lean ====
section
/-!
DEFINITION. The blocks of the module as plain data: every register, queue, buffer, counter, mode and pin the spec
names, block by block. The fields of a shadowed register stand as `…Sh` (the shadow, RWB) and `…Act` (the active
value, R9).
-/
namespace Sys2Proof.Machine

open Sys2Proof

/-! ### Cores -/

/-- A commit record as a lane presents it (R36). `sub`, `addr` and `value` are the payload of kind 0x1, 0 otherwise. -/
structure CommitRec where
  kind  : Nat
  seq   : Word
  sig   : Dword
  sub   : Nat
  addr  : Word
  value : Word
  deriving DecidableEq, Repr

/-- A trap report (R128): code, sequence number the next commit would have had, PC, and the address that faulted,
which TRI_TRAP_ADDR shows and the match of R129 does not compare. -/
structure TrapRec where
  code : Nat
  seq  : Word
  pc   : BitVec 22
  addr : Word
  deriving DecidableEq, Repr

/-- What a lane sends to the voter. -/
inductive LaneMsg where
  | commit (r : CommitRec)
  | trap (r : TrapRec)
  deriving DecidableEq, Repr

/-- What a core is doing (R36, R117, R124, R128). -/
inductive Run where
  | idle
  | running
  | waitCommit
  | waitSvw (gd : Reg) (index : Nat) (word : Nat)
  | trapped
  deriving DecidableEq, Repr

/-- The Kennel status of a core (R86, R87, R90). `quick` is a quick check. -/
inductive Ken where
  | none | test | quick | failed | waitInvalid
  deriving DecidableEq, Repr

/-- A core: architectural state (R101), what it has sent, and its place in the triad control (R18, R82 to R87). -/
structure Core where
  st    : CoreSt
  g     : Vector Word 32
  ib    : Word
  pc    : BitVec 22
  stack : List (BitVec 22 × Word)
  count : Nat
  seq   : Word
  sig   : Dword
  run   : Run
  out   : Option LaneMsg
  svq   : Nat
  closeMark : Option Nat
  nmiSave : Option (BitVec 22 × Word × Vector Word 32)
  nmiCode : Nat
  sram  : SMap Byte
  ken   : Ken
  kenResult : Option (KResult × Nat)
  kenAt : Nat
  kenQuick : Bool
  due : Bool
  resSince : Nat
  retest : Bool
  nv    : Option NvId
  nvSince : Nat
  nvIdle : List NvId
  deriving DecidableEq, Repr

/-! ### Triads -/

/-- One arrival at a voter: the lane, what it sent, and the TB stamp (R41). -/
structure Arr where
  lane  : Lane
  msg   : LaneMsg
  stamp : Nat
  deriving DecidableEq, Repr

/-- A released commit that waits for its third lane (R41, R42), with the NMI attached to it (R133). -/
structure Rel where
  record : CommitRec
  stamp  : Nat
  third  : Lane
  arrs   : List Arr
  nmi    : Option Nat
  deriving DecidableEq, Repr

/-- A triad's voter: records of the commit not yet released, and released commits waiting for the third lane. -/
structure Voter where
  cur  : List Arr
  wait : List Rel
  deriving DecidableEq, Repr

/-- TRI_HEEL_ST_n.STATE. -/
inductive HeelSt where
  | none | full | catchup | waitReserve | waitEngine
  deriving DecidableEq, Repr

/-- Heel of one triad (R70 to R76). `pages` is the list of the pass that is running. -/
structure Heel where
  st     : HeelSt
  bank   : Option Lane
  pages  : List Nat
  dirty  : List Nat
  unres  : List Nat
  pass   : Nat
  fix    : Nat
  slow   : Bool
  noRes  : Bool
  deriving DecidableEq, Repr

/-- A voting capture set (R68). -/
structure Capture where
  valid   : Bool
  present : BitVec 3
  kind    : BitVec 4
  event   : Byte
  seq     : Word
  cyc     : Word
  addr    : Word
  sigs    : Vector Dword 3
  arrs    : Vector Word 3
  deriving DecidableEq, Repr

/-- A trap capture set (R136). -/
structure TrapCap where
  valid : Bool
  lanes : BitVec 3
  code  : Byte
  pc    : BitVec 22
  addr  : Word
  cyc   : Word
  deriving DecidableEq, Repr

/-- The handling interval and the pending NMIs of a triad (R461, R462, R465, ERR_HND_n). `active` is the code of the
event whose NMI the lanes are handling, `opens` says whether that NMI is the interval's own, `retn` which lanes have executed RETN for
it, and `late` how many RETN of earlier NMIs a lane still owes. -/
structure Hnd where
  isOpen : Bool
  taken  : Bool
  code   : Nat
  budgetFrom : Nat
  nmis   : List (Nat × Bool)
  active : Option (Nat × Bool)
  retn   : BitVec 3
  late   : Vector Nat 3
  deriving DecidableEq, Repr

/-- A triad (R16 to R18, R61 to R65). -/
structure Triad where
  mode  : TriMode
  odd   : Option Lane
  part  : Option PartId
  lastEvt : Nat
  cores : Vector (Option CoreId) 3
  commits : Nat
  commitsLast : Word
  lagRun  : BitVec 2 × Nat
  lagLast : BitVec 2 × Nat
  lagWarned : Bool
  cap   : Capture
  trap  : TrapCap
  voter : Voter
  heel  : Heel
  hnd   : Hnd
  pairSince : Nat
  leashing  : Bool
  stopCycle : Option Nat
  deriving DecidableEq, Repr

/-- The TRI block's shared registers (R60, R97 to R100, R136). -/
structure Tri where
  lagWinSh : Byte
  lagWinAct : Byte
  lagWarnSh : Byte
  lagWarnAct : Byte
  dynFault : BitVec 28
  pairLimitSh : BitVec 16
  pairLimitAct : BitVec 16
  finalPagesSh : BitVec 11
  finalPagesAct : BitVec 11
  retestSh : Byte
  retestAct : Byte
  unleashSh : BitVec 5
  unleashAct : BitVec 5
  hoValid : Bool
  hoStatus : BitVec 2
  hoTarget : BitVec 3
  hoPart : BitVec 3
  hoSwitched : List PartId
  nvqSh  : Vector Word 16
  nvqAct : Vector Word 16
  nvPages : Vector (List Nat) 16
  nvLimited : Vector Bool 16
  scrubSh : Byte
  scrubAct : Byte
  scrubPeriod : Byte
  scrubRounds : BitVec 24
  scrubFrom : Nat
  scrubFix : Word
  nvTrapValid : Bool
  nvTrapCore : BitVec 4
  nvTrapPart : BitVec 3
  nvTrapCode : Byte
  nvTrapPc : BitVec 22
  nvTrapAddr : Word
  nvTrapCyc : Word
  engineLast : Vector Nat 3
  finalRan : Bool
  deriving DecidableEq, Repr

/-! ### Scan controller -/

/-- SCN_PART_n.STATE. -/
inductive PartSt where
  | none | ready | solving | ended | stopped
  deriving DecidableEq, Repr

/-- A vital partition's run state (R142 to R144, R154 to R160). `entered` stands from the AGREE_END whose Solve is
the partition's until that Solve ends, also while it waits for its last Emit; `emitting` while an Emit runs. -/
structure Part where
  st       : PartSt
  last     : Nat
  isolated : Bool
  solveMax : Nat
  budgetSh : BitVec 20
  budgetAct : BitVec 20
  budgetArmed : BitVec 20
  entered  : Bool
  released : Bool
  releaseTb : Nat
  releaseCyc : Nat
  emitting : Bool
  emitStepped : Bool
  substOut : Bool
  cpySubst : Bool
  lostDue  : Bool
  ovlLast  : Nat
  svyUse   : Bool
  deriving DecidableEq, Repr

/-- SCN_NVPART_k.STATE. -/
inductive NvSt where
  | none | waiting | running | done | cut | stopped
  deriving DecidableEq, Repr

/-- A non-vital partition (R156, SCN_NVPART_k). -/
structure NvPart where
  st   : NvSt
  last : Nat
  budgetSh : BitVec 20
  budgetAct : BitVec 20
  deriving DecidableEq, Repr

/-- A reference to an outstanding host command: ring and fetch number. -/
structure CmdRef where
  ring : Fin 8
  no   : Nat
  deriving DecidableEq, Repr

/-- What was accepted and waits for a boundary (R145 step 7, R148, R153, R422). -/
inductive Req where
  | mode (m : Mode)
  | step
  | handover
  | nvRestart (c : CoreId)
  deriving DecidableEq, Repr

/-- The scan controller (R139 to R163). `phase` is SCN_STAT.PHASE, `agreed` that AGREE_END of the cycle has
passed, `watchdogOvr` the partitions that the watchdog has found in overrun at the boundary to come, `overran` that an
overrun has been handled in the cycle. -/
structure Scn where
  mode : Mode
  prev : Option Mode
  cause : Nat
  tcycSh : BitVec 14
  tcycAct : BitVec 14
  safeExitSh : Bool
  safeExitAct : Bool
  commEn : Bool
  stepPending : Bool
  stepped : Bool
  phase : BitVec 2
  cycle : Nat
  bTb : Nat
  nextB : Nat
  bndEnd : BitVec 16
  agreeUs : BitVec 16
  agreeTb : Nat
  agreed : Bool
  safeThisCycle : Bool
  ovrValid : Bool
  ovrPart : BitVec 3
  ovrKind : BitVec 2
  ovrIso : Bool
  ovrCyc : Word
  watchdogOvr : List PartId
  overran : Bool
  reqs : List (CmdRef × Req)
  imageValid : Bool
  deriving DecidableEq, Repr

/-! ### Process image -/

/-- One bank's copy of the process image, keyed by `Sig.key`: input and host request area, owner copies of outputs and
NEXT copies of boundary signals (`cur`), copies taken at B (`cpy`), internal signals and overlays by partition, and the
quality words of the input and host request areas (R164 to R170). -/
structure LaneImg where
  cur  : SMap Word
  cpy  : SMap Word
  ints : Vector (SMap Word) 5
  ovl  : Vector (SMap (Option Word)) 5
  qual : SMap Word
  deriving DecidableEq, Repr

/-- An active entry of the force table (R179). -/
structure Force where
  gaz   : Nat
  sig   : Sig
  value : Word
  cyc   : Nat
  deriving DecidableEq, Repr

/-- A force command accepted for the next boundary (R179): a value sets, none removes. -/
structure ForceCmd where
  ref   : CmdRef
  gaz   : Nat
  sig   : Sig
  value : Option Word
  deriving DecidableEq, Repr

/-- The PIM (R164 to R185). `hreq` are host request writes accepted since B, `hsnap` the snapshot taken at B. `counted`
says that an HREQ_SET of ring 1 was accepted since B. `hostLost` is the host treated as lost by the supervision of R174
until it sends again, `linkLost` any loss until Agree acts on it. -/
structure Pim where
  img : Vector LaneImg 3
  forceTab : Vector (List Force) 3
  cmds : List ForceCmd
  substCnt : Nat
  capValid : Bool
  capReason : BitVec 4
  capSig : Sig
  tmoSh : BitVec 16
  tmoAct : BitVec 16
  tmoCnt : Nat
  counted : Bool
  hreq : List (CmdRef × Sig × Word)
  hsnap : List (CmdRef × Sig × Word)
  linkLost : Bool
  hostLost : Bool
  lastHold : SMap Word
  deriving DecidableEq, Repr

/-- The force table (R179), as the module reads it. Each bank holds a copy (R14); a write reaches all three, and only a
fault in a bank makes a copy differ. -/
def Pim.forces (x : Pim) : List Force := x.forceTab[(0 : Fin 3)]

/-- The force table written in all three banks. -/
def Pim.setForces (x : Pim) (l : List Force) : Pim := { x with forceTab := Vector.replicate 3 l }

/-! ### On-line change -/

/-- OLC_STAT.STATE (R192). -/
inductive OlcSt where
  | idle | receiving | checking | staged | verifying | waiting | held
  deriving DecidableEq, Repr

/-- The on-line change block (R186 to R211). `active` is the image that runs, `rollback` the image it replaced. `recv`
are the pieces of sections received (section, offset, length), `bytes` the sections as each bank holds them, one after
another. `space` is the staging space in use, by partition, first MiB and MiB: the regions of the staged set, or, while
a rollback image is held, the regions replaced. `header` is the header of the set staged or held, `rolling` says that
VERIFYING or WAITING is for the rollback image, `accepting` that OLC_ACCEPT is writing the program store, `carryUs` is
the time that an activation adds to the boundary of the running cycle. -/
structure Olc where
  st : OlcSt
  result : Byte
  maxUsSh : BitVec 16
  maxUsAct : BitVec 16
  keyReqSh : Bool
  keyReqAct : Bool
  waitSh : Byte
  waitAct : Byte
  header : Option OlcHeader
  recv : List (Nat × Nat × Nat)
  bytes : Vector (SMap Byte) 3
  staged : Option Image
  images : Vector (Option Image) 3
  rollback : Option Image
  rolling : Bool
  waitCnt : Nat
  planMatch : Word
  planNew : Word
  planRemoved : Word
  planRetyped : Word
  planBytes : Word
  planUs : Nat
  space : List (Nat × Nat × Nat)
  accepting : Bool
  carryUs : Nat
  actCyc : Word
  deriving DecidableEq, Repr

/-- The running image, as the module reads it: the descriptors, the Gazetteer, the ownership and the tables that the
system area of each bank holds (R14). A write reaches all three banks, and only a fault in a bank makes a copy differ. -/
def Olc.active (o : Olc) : Option Image := o.images[(0 : Fin 3)]

/-- The running image written in all three banks. -/
def Olc.setActive (o : Olc) (im : Option Image) : Olc := { o with images := Vector.replicate 3 im }

/-! ### Survey unit -/

/-- A voted result of the cycle, present in all three banks (R234, R237). -/
structure SvyRes where
  triad : TriadId
  index : Nat
  words : Vector Word 8
  deriving DecidableEq, Repr

/-- What a Survey lane has presented for a request and not yet been matched with (R237). -/
structure SvyPres where
  lane  : Lane
  triad : TriadId
  index : Nat
  words : Vector Word 8
  lset  : List Word
  stamp : Nat
  deriving DecidableEq, Repr

/-- A triad's request queue in the current cycle (R225, R226). `words` are the words released, `closeLen` is how many of
them made complete requests when the queue closed. -/
structure SvyQ where
  words : List Word
  closeBy : Nat
  closeLen : Nat
  quotaSh : BitVec 15
  quotaAct : BitVec 15
  areaFull : Bool
  discarded : Bool
  deriving DecidableEq, Repr

/-- The Survey unit (R212 to R247). `table` holds, in each bank, the block of R214 as words. `round` is 0 with no round
in this cycle, 1 while collecting, 2 while judging, 3 when done. -/
structure Svy where
  cfgSh : Word
  cfgAct : Word
  odd : Option Lane
  failed : Bool
  round : Nat
  queues : Vector SvyQ 5
  pres : List SvyPres
  done : List SvyRes
  agreedAt : List (TriadId × Nat × Nat)
  table : Vector (List Word) 3
  startUs : BitVec 20
  roundStart : Nat
  lastReqs : BitVec 15
  lastGranted : BitVec 15
  lastStart : BitVec 20
  lastEnd : BitVec 20
  roundMax : BitVec 16
  capValid : Bool
  capEvent : Byte
  capTriad : BitVec 3
  capLane : BitVec 2
  capRoute : BitVec 15
  capIndex : BitVec 15
  capCyc : Word
  deriving DecidableEq, Repr

/-! ### Local inputs and outputs -/

/-- One comparator chain of an input: the filtered class, the runs of equal and of flagged samples, the counter filter,
and the class latched at B (R250 to R253). -/
structure Chain where
  cls : Option InCls
  band : Bool
  runCls : Option InCls
  runLen : Nat
  bandLen : Nat
  cnt : Nat
  div : Nat
  brkRun : Nat
  latched : Option InCls
  latchedBand : Bool
  deriving DecidableEq, Repr

/-- A local input (R249 to R254, R269). -/
structure InCh where
  cfgSh : Word
  cfgAct : Word
  chains : Vector Chain 3
  val : Bool
  fault : Bool
  brk : Bool
  band : Bool
  differed : Bool
  differRaised : Bool
  bandRaised : Bool
  trans : Word
  deriving DecidableEq, Repr

/-- An output or brake channel: the dynamic code (R54 to R57), its credit, latches, terminal and counts (R255 to R269).
`want` is the value last handed over, `credit` the last cycle for which it holds, `latch` the level of a non-vital
channel. `waitOn` is the TB of an energise request that waits on a brake test, `termB` and `statB` the terminal reading
and the status word latched at B, `restoring` that a terminal is to return ON after an off-pulse that started at `restFrom`, `stuck` that
OUT_STUCK_ON has been raised since the code last ran. `chips` is the register of each voter lane; `high` and `low` are the
readback chains of the terminal or high-side pole and of the low-side pole, `heldHigh` and `heldLow` their votes before the
off-pulse, `coilFrom` since when an energised brake channel has had no coil current. -/
structure OutCh where
  code : Bool
  chips : Vector (BitVec 15) 3
  want : Bool
  credit : Option Nat
  stopAt : Nat
  fbLatch : Bool
  tfail : Bool
  ovld : Bool
  pulse : Bool
  brkTest : Bool
  high : Vector Bool 3
  low : Vector Bool 3
  coil : Bool
  coilFrom : Option Nat
  heldHigh : Bool
  heldLow : Bool
  termB : Bool
  statB : Word
  restoring : Bool
  restFrom : Nat
  stuck : Bool
  switched : Word
  second : Bool
  waitOn : Option Nat
  latch : Bool
  emitted : Bool
  silFrom : Nat
  silFired : Bool
  silModeSh : BitVec 2
  silModeAct : BitVec 2
  silMsSh : BitVec 10
  silMsAct : BitVec 10
  vital : Bool
  gang : BitVec 2
  exer : Bool
  envOk : Bool
  deriving DecidableEq, Repr

/-- The DIO block (R248 to R273, R542). `chipAt` is the TB of the last chip boundary, `test` the off-pulse that runs
with its T0, `io` the START configuration (R261). -/
structure Dio where
  ins : Vector InCh 48
  outs : Vector OutCh 28
  iocfgDiff : Bool
  fieldLow : Bool
  fieldVolt : BitVec 16
  intervalSh : BitVec 16
  intervalAct : BitVec 16
  aborted : BitVec 16
  pos : Nat
  nextPos : Nat
  visits : Nat
  gridFrom : Nat
  chipAt : Nat
  test : Option (Chan × Nat)
  last : BitVec 2
  io : Option IoDesc
  deriving DecidableEq, Repr

/-! ### Safety functions -/

/-- Where one reset input stands in its attempt (R281): `on` since B of an Agree, `done` with its ON and OFF stamps. -/
inductive RstIn where
  | waitOff
  | ready
  | on (since : Nat)
  | done (on off : Nat)
  deriving DecidableEq, Repr

/-- A brake test (R289 to R293). `starting` stands from the boundary at which it starts to the next Agree, `ending`
from its end until an Agree has written END. -/
structure Brk where
  phase : BitVec 2
  last : BitVec 2
  due : Bool
  overdue : Bool
  passAt : Nat
  graceAt : Option Nat
  startB : Nat
  ref : Int
  starting : Bool
  ending : Bool
  deriving DecidableEq, Repr

/-- The SAF block (R274 to R303). `pulseDue` is the reset pulse still to be given, `leave` the transition a reset
asks for at the next boundary, `hostAccepted` a commit that counts at the next Agree. -/
structure Saf where
  desc : Option SafetyDesc
  cfgDiff : Bool
  accepted : BitVec 16
  reason : BitVec 4
  source : BitVec 2
  inA : RstIn
  inB : RstIn
  armAt : Option Nat
  hostAccepted : Bool
  pulseDue : Bool
  leave : Bool
  pend : Vector Bool 48
  opened : Vector Bool 48
  proofDone : Bool
  fbTerm : Vector Bool 24
  fbFrom : Vector (Option Nat) 24
  brk : Vector Brk 4
  exer : Option (Chan × Nat)
  exerOn : Bool
  exerEnd : Nat
  dlaActive : Bool
  dlaSt : Word
  dlaBack : Bool
  deriving DecidableEq, Repr

/-! ### Ubuno -/

/-- UBx_STAT.STATE. -/
inductive UbSt where
  | off | listening | coldstart | keeper | foreign | standby
  deriving DecidableEq, Repr

/-- A station at run time (R331 to R333, R349). `got` says a slot delivered in the running bus cycle, `join` the CONF of
a JOIN since the previous boundary. -/
structure StnRt where
  id : Nat
  admitted : Bool
  lost : Bool
  everAdmitted : Bool
  run : Nat
  missed : BitVec 16
  sb : BitVec 16
  got : Bool
  join : Option Word
  joinRefused : Bool
  lostSince : Bool
  deriving DecidableEq, Repr

/-- The latest valid frame of a slot or dynamic ID (R315, R316). -/
structure UbRx where
  id : Nat
  typ : Nat
  payload : List Byte
  chanB : Bool
  cycle : Nat
  isFresh : Bool
  deriving DecidableEq, Repr

/-- A released DYNAMIC request (R329). `limited` says that it waits for budget. -/
structure DynReq where
  mini : Nat
  len : Nat
  part : PartId
  ready : Bool
  limited : Bool
  deriving DecidableEq, Repr

/-- What the module last put on a bus (R310, R311, R326): the header's fields, the payload, the channels it is sent on,
the partition whose frame it is, the triad whose voter lanes enable it, the TB at which the frame begins and ends, and the TB at
which its enable is withdrawn at the latest (R51, R52). -/
structure UbTx where
  typ : Nat
  id : Nat
  sender : Nat
  cycle : Nat
  payload : List Byte
  chanA : Bool
  chanB : Bool
  part : Option PartId
  by_ : TriadId
  lanes : Vector Bool 3
  begins : Nat
  ends : Nat
  till : Nat
  deriving DecidableEq, Repr

/-- A code group of a frame (R310): one of the lead-in, the start delimiter, a byte, one of the end delimiter. -/
inductive UbGroup where
  | leadIn
  | start
  | data (b : Byte)
  | stop
  deriving DecidableEq, Repr

/-- What R336 counts of a channel: the static slots of the running bus cycle that delivered a valid frame on it, those
that delivered a frame error on it, whether activity was unbroken for too long, and the jammed and unjammed cycles in a
row. -/
structure UbJam where
  good : List Nat
  bad : List Nat
  busy : Bool
  run : Nat
  clean : Nat
  deriving DecidableEq, Repr

/-- One Ubuno bus (R304 to R350). `cycFrom` is the start of the running bus cycle, `cycNo` the cycle whose B last
started one, `closed` that the misses of the running bus cycle are counted, `minis` the minislot count of R330, `lag`
the minislots by which the count is behind the time, `held` a minislot whose activity carries no header to trust with the
minislots it lasts, `copyCyc` the cycle of the Emit that ended, `heardRx` the valid frames of the running bus cycle that a
foreign keeper keeps from Gather, `snap` the snapshot of `rx` at B, `lowSeen` and `errSeen` what a claim watches for, `claimSent` that
the claim cycle's COLDSTART was sent, `claimFrom` the TB from which sync slots carry a claim (R322), `jam` channels A and
B, `downA` and `downB` a channel that has not come back since its SFP module was unusable. -/
structure Ub where
  lay : UbLayout
  layAct : UbLayout
  st : UbSt
  cycFrom : Nat
  cycAtB : Bool
  cycNo : Nat
  closed : Bool
  busCyc : Word
  count : Nat
  keeperOfs : BitVec 16
  keeperSlot : BitVec 11
  errA : BitVec 16 × BitVec 16
  errB : BitVec 16 × BitVec 16
  sbValid : Bool
  sbCh : Bool
  sbStation : BitVec 10
  sbId : BitVec 13
  sbDev : Word
  sbCyc : Word
  stnSel : BitVec 10
  stations : List StnRt
  dynSh : Vector (BitVec 13) 5
  dynAct : Vector (BitVec 13) 5
  dynLeft : Vector Nat 5
  minis : Nat
  lag : Nat
  held : Option (Nat × Nat)
  wp : Vector Word 8
  wpAct : Vector Word 8
  wpCap : Vector Word 8
  wpSt : BitVec 8
  wpFired : BitVec 8
  next : SMap Byte
  cur : SMap Byte
  ctrl : List (Nat × Word)
  dyn : List DynReq
  copyDue : Vector Bool 5
  copyCyc : Vector Nat 5
  curValid : Vector (Option Nat) 5
  rx : List UbRx
  heardRx : List UbRx
  snap : List UbRx
  claim : Nat
  listenFrom : Nat
  backoffFrom : Nat
  heard : Bool
  lowSeen : Bool
  errSeen : Bool
  claimSent : Bool
  claimFrom : Nat
  jam : Vector UbJam 2
  jamA : Bool
  jamB : Bool
  sfpA : Bool
  sfpB : Bool
  downA : Bool
  downB : Bool
  sbRaised : Bool
  differRaised : Bool
  precRaised : Bool
  silentRaised : Bool
  foreignRaised : Bool
  sent : Option UbTx
  deriving DecidableEq, Repr

/-! ### CAN FD -/

/-- CAN_n_STAT.STATE. -/
inductive CanSt where
  | off | integrating | active | passive | busOff | listen
  deriving DecidableEq, Repr

/-- A receive entry (R359). -/
structure CanRx where
  frame : CanFrame
  own : Bool
  lostBefore : Bool
  sof : Nat
  seq : BitVec 16
  deriving DecidableEq, Repr

/-- Who owns a transmit entry (R361). -/
inductive CanOwner where
  | vital (p : PartId)
  | nonvital (k : NvId)
  deriving DecidableEq, Repr

/-- A pending request or one in transmission (R362, R363). `enBy` is the triad whose voter lanes enable the attempt on
the wire (R51, R368), `kept` that the request was in transmission at the boundary at which it would have expired, `old`
that the entry's latest request is another, which has ended already (R365). -/
structure CanReq where
  entry : Nat
  frame : CanFrame
  oneShot : Bool
  cancel : Bool
  onWire : Bool
  cyc : Nat
  owner : CanOwner
  enBy : Option TriadId
  kept : Bool
  old : Bool
  deriving DecidableEq, Repr

/-- One CAN FD channel (R351 to R373). `wireSof` and `enTill` are the TB of the SOF of the frame on the wire and of the end
of its transmit enable, `enLanes` the voter lanes whose own copy of the schedule asserts it (R51, R52). -/
structure Can where
  cfgSh : BitVec 5
  cfgAct : BitVec 5
  nbtSh : Word
  nbtAct : Word
  dbtSh : Word
  dbtAct : Word
  tdcSh : Word
  tdcAct : Word
  st : CanSt
  recovering : Bool
  txErr : Nat
  rxErr : Nat
  tdcOvf : Bool
  tdcv : BitVec 5
  clkIo : Bool
  rxCnt : Word
  txCnt : Word
  rxLost : Word
  errTx : BitVec 16
  errRx : BitVec 16
  collide : BitVec 16
  busOffs : BitVec 16
  fill : BitVec 13
  maxFill : BitVec 13
  buf : List CanRx
  snap : List CanRx
  snapSt : SMap Word
  lostSince : Nat
  snapLost : Nat
  lostFlag : Bool
  rxSeq : BitVec 16
  ovfRaised : Bool
  suspect : Bool
  mem : SMap Byte
  ctl : List (Nat × Word)
  reqs : List CanReq
  waiting : List CanReq
  stat : SMap Word
  wireSof : Nat
  enTill : Nat
  enLanes : Vector Bool 3
  deriving DecidableEq, Repr

/-! ### Host interface -/

/-- A completion-queue entry (R385). -/
structure CqEntry where
  typ : Nat
  phase : Bool
  lostBefore : Bool
  id : BitVec 16
  a : Byte
  b : Byte
  c : BitVec 16
  cyc : Nat
  data0 : Dword
  data1 : Dword
  deriving DecidableEq, Repr

/-- An outstanding command: fetched and not yet completed (R386), with its fetch number and its SQ index. `dma` while a
host memory access of its own runs. -/
structure Cmd where
  no : Nat
  idx : Nat
  desc : Descriptor
  dma : Bool
  deriving DecidableEq, Repr

/-- HST_RING_ST_r.STATE. -/
inductive RingSt where
  | disabled | running | error
  deriving DecidableEq, Repr

/-- One host ring (R378 to R386). `cq` holds the entries written and not yet freed, oldest first; `fetched` counts the
descriptors fetched. -/
structure Ring where
  sqBase : Dword
  cqBase : Dword
  en : Bool
  vec : BitVec 4
  nvpart : BitVec 3
  size : BitVec 4
  quotaSh : BitVec 13
  quotaAct : BitVec 13
  st : RingSt
  phase : Bool
  sqHead : Nat
  sqTail : Nat
  cqTail : Nat
  cqHead : Nat
  sqDb : Word
  cqDb : Word
  lost : BitVec 4
  lostFlag : Bool
  cqLostRaised : Bool
  seqLast : Word
  fetched : Nat
  cq : List CqEntry
  waitq : List CqEntry
  outs : List Cmd
  deriving DecidableEq, Repr

/-- What the host sets in the endpoint's configuration space (R374): MSI-X Enable and Function Mask, the power state
(D3hot), the payload and read request sizes in bytes, and the error status words of Advanced Error Reporting. -/
structure Pcie where
  msixEn : Bool
  funcMask : Bool
  d3hot : Bool
  maxPayload : Nat
  maxRead : Nat
  aerUncorr : Word
  aerCorr : Word
  deriving DecidableEq, Repr

/-- The host interface and the key slots (R374 to R400). `stopped` says that the test of the ring engine has begun
(R398), `keyStores` are the keys on their way into the sealed store, `dmaOut` what the module last wrote to host memory
for a command, `msgs` the NV_MSG descriptors not yet copied, each with the partition that its ring served when it was
accepted, `scanOpen` the latch of R487 open. -/
structure Hst where
  pcie : Pcie
  scanOpen : Bool
  link : Bool
  sd : Bool
  keys : Bool
  stopped : Bool
  tagFail : BitVec 16
  nonce : Dword
  rings : Vector Ring 8
  seqs : Vector (Vector Word 8) 8
  slots : Vector (Option (List Byte)) 8
  keyStat : BitVec 2
  keyStores : List (CmdRef × Fin 8 × List Byte)
  dmaOut : Option (Dword × List Byte)
  msix : SMap Word
  pba : BitVec 16
  sent : Vector Nat 16
  statMem : SMap Byte
  statCtl : List (Nat × Nat × Word)
  msgs : List (CmdRef × Descriptor × NvId)
  deriving DecidableEq, Repr

/-! ### Rack bus and twin -/

/-- RCK_PART_s.STATE. -/
inductive RackSt where
  | absent | present | refused | admitted | stale
  deriving DecidableEq, Repr

/-- A rack slot (R408 to R411). `data` is a complete read of the input window in the cycle, `snap` its snapshot at B;
`held` says that the objects hold substitutes until the next complete read, `left` that RCK_PARTNER_LEFT is due at the next
Agree. -/
structure RackPart where
  st : RackSt
  typ : BitVec 16
  matched : Bool
  life : Word
  lifeMoved : Bool
  lifeCnt : Nat
  nacked : Bool
  nackCnt : Nat
  inOfs : Nat
  inLen : Nat
  data : Option (List Word)
  snap : Option (List Word)
  held : Bool
  left : Bool
  deriving DecidableEq, Repr

/-- RCK_STAT.ROLE. -/
inductive Role where
  | single | active | standby
  deriving DecidableEq, Repr

/-- A page record of the equalisation stream (R416). -/
structure EqPage where
  part : PartId
  ofs  : Nat
  data : List Byte
  deriving DecidableEq, Repr

/-- The equalisation stream of a cycle (R416). `first` are the pages owed from earlier cycles, which stand before the
pages written in the cycle (R417). -/
structure EqStream where
  cycle : Nat
  tb : Nat
  id : Word
  mask : BitVec 5
  first : List EqPage
  pages : List EqPage
  deriving DecidableEq, Repr

/-- The rack bus, the mirror and the twin (R401 to R428). `answer` is what the module last answered to a rack read,
none after a NACK. `peerMet` says that the partner has locked. `written` are the data pages written in the cycle, `owed` the pages owed. `building` is the stream of
the running cycle, `stream` that of the last one as words, `readHalves` how many halves of it the window has served.
`rxWords` is what this module has read of its partner's stream, `applied` the last cycle whose stream it applied and
`appliedId` its OLC_ID_ACT. `bndMissed` counts boundaries without TW_BND. `takeover`, `dual` and `safeDue`, the hand-over of a module that
has entered SAFE while ACTIVE in a twin, wait for the next boundary; `holdOver` is the cycle in which outputs are held over, `holdEmit` the TB of TW_EMIT, `restrict` the cycle of
R423, `solveFrom` the first cycle in which the module solves again, `emitDue` that TW_EMIT is still to be pulsed and
`emitSent` how often it was. -/
structure Rck where
  twinEnSh : Bool
  twinEnAct : Bool
  autoSh : Bool
  autoAct : Bool
  role : Role
  sid : BitVec 4
  pres : BitVec 16
  parts : Vector RackPart 16
  given : BitVec 16
  rcvd : BitVec 16
  answer : Option Word
  peer : Bool
  transfer : Bool
  lock : Bool
  equal : Bool
  peerEqual : Bool
  peerMet : Bool
  limitSh : BitVec 16
  limitAct : BitVec 16
  lastKib : BitVec 12
  written : List (PartId × Nat)
  owed : List (PartId × Nat)
  building : Option EqStream
  stream : Option EqStream
  streamWords : List Word
  readHalves : Nat
  rxWords : List Word
  loaded : Bool
  applied : Option Nat
  appliedId : Word
  ofsNs : Word
  bndMissed : Nat
  hoCause : BitVec 2
  hoLost : BitVec 2
  hoCyc : BitVec 28
  mirNext : SMap Byte
  mirCur : SMap Byte
  twinWord : Word
  takeover : Bool
  dual : Bool
  dualSeen : Bool
  handCyc : Nat
  safeDue : Bool
  roleFrom : Nat
  holdOver : Option Nat
  holdEmit : Option Nat
  restrict : Option Nat
  solveFrom : Nat
  emitDue : Bool
  emitSent : Nat
  reqs : BitVec 16
  gnt : Option (Fin 16)
  lastSlot : Nat
  ownLast : Bool
  deriving DecidableEq, Repr

/-! ### Clocks, check-value units, errors, self-test, Logbook -/

/-- The clocks (R429 to R447). `srcIo` is CLK_STAT.SRC; `switchTo` a reference switch in progress, to IO if true. The
`held…` fields are what a gated block held at closure (R443); `noRefFrom` is the TB from which PLL-T has had no reference
(R436). `rsiSeen` and `rsiOk` say, for the cycle `rsiCyc`, that a window of the lane has ended and that one reached
GUAR (R445). -/
structure Clk where
  srcIo : Bool
  switchTo : Option Bool
  xoStable : Bool
  xoInRange : Bool
  xoFailed : Bool
  ioOk : Bool
  lockT : Bool
  lockS : Bool
  lockC : Bool
  ppsOk : Bool
  refLock : Bool
  escape : Bool
  fails : BitVec 16
  monCount : BitVec 11
  goodWins : Nat
  retReq : Bool
  retWinSh : Byte
  retWinAct : Byte
  steerSh : Bool
  steerAct : Bool
  autoSh : Bool
  autoAct : Bool
  sscSh : Word
  sscAct : Word
  divSh : Word
  divAct : Word
  gateReq : BitVec 8
  gatePend : BitVec 8
  gateClosed : BitVec 8
  gateForced : BitVec 8
  gateSince : Vector Nat 8
  heldCan : Vector (Option Can) 4
  heldUb : Vector (Option Ub) 2
  heldRck : Option Rck
  noRefFrom : Option Nat
  trim : BitVec 16
  ofs : BitVec 16
  pps : Dword
  rsi : Vector (BitVec 16) 3
  rsiMin : Vector (BitVec 16) 3
  rsiOk : Vector Bool 3
  rsiSeen : Vector Bool 3
  slowRaised : Vector Bool 3
  rsiCyc : Nat
  monSeen : Bool
  stopped : Bool
  heldIo : Vector Bool 2
  deriving DecidableEq, Repr

/-- A check job waiting on or running in a unit (R453). -/
structure JobRun where
  part : PartId
  job  : Nat
  bank : Lane
  deriving DecidableEq, Repr

/-- A check-value unit (R448 to R457). -/
structure CrcU where
  modeSh : BitVec 2
  modeAct : BitVec 2
  ie : Bool
  vec : BitVec 4
  run : Dword
  dmaOfs : Word
  dmaBank : BitVec 2
  dmaLen : BitVec 24
  exp : Dword
  count : BitVec 16
  ecc : Bool
  dropped : Bool
  busy : Bool
  ok : Bool
  mismatch : Bool
  checkDue : Bool
  goOfs : Word
  goBank : BitVec 2
  goLen : BitVec 24
  late : BitVec 16
  done : BitVec 16
  doneRun : BitVec 16
  jobs : List JobRun
  deriving DecidableEq, Repr

/-- The job mismatch capture (R454, R457). -/
structure CrcCap where
  valid : Bool
  bank : BitVec 2
  part : BitVec 3
  unit : BitVec 3
  job : BitVec 5
  cyc : Word
  deriving DecidableEq, Repr

/-- An event in a queue of the ERR block (R466, R471). -/
structure QEv where
  code : Nat
  cls : Cls
  who : Byte
  argA : Word
  argB : Word
  cyc : Nat
  tb : Nat
  deriving DecidableEq, Repr

/-- The ERR block (R458 to R472). -/
structure Err where
  vq : List QEv
  nq : List QEv
  nvLost : BitVec 16
  lostPend : Nat
  lostFlag : Bool
  mask : BitVec 19
  cntF : Word
  cntV : Word
  cntN : Word
  ffValid : Bool
  ffCode : BitVec 16
  ffCyc : Word
  lastCls : BitVec 2
  lastCode : BitVec 16
  deriving DecidableEq, Repr

/-- The test record (R475); `check` is what stands in its CHECK field. -/
structure TestRec where
  format : Word
  result : Byte
  kind : Byte
  cause : BitVec 16
  poh : Word
  fw : Word
  serial : Word
  rsiMin : BitVec 16
  rsiMax : BitVec 16
  temp : BitVec 16
  failBlocks : Word
  failCores : BitVec 16
  check : Word
  deriving DecidableEq, Repr

/-- Where START stands in the sequence of R473. -/
inductive StartPh where
  | off | clock | quick | full | retry | load | check | keys | ready | over
  deriving DecidableEq, Repr

/-- The BST block (R473 to R497). `used` is the record the last START used or the record written since. While a full
self-test runs `testFrom` is the TB at which it began, `part` the part of R492 that is under test, `held` the words of
the isolated block's registers (R490), and `rsiLo` and `rsiHi` are the extremes of the ring-speed index (R475).
`maxAge` and `forceFull` are BST_CFG as this START found it (R497), `drained` that the Logbook has been updated in SHUTDOWN. -/
structure Bst where
  testFrom : Option Nat
  part : Nat
  held : List Word
  rsiLo : BitVec 16
  rsiHi : BitVec 16
  maxAge : BitVec 12
  forceFull : Bool
  drained : Bool
  block : Byte
  pct : Byte
  reason : BitVec 4
  wait : Bool
  retryAt : Nat
  start : BitVec 2
  phase : BitVec 3
  ph : StartPh
  retryQuick : Bool
  age : Word
  used : Option TestRec
  sig : Dword
  temp : BitVec 16
  invRaised : Bool
  noTest : Bool
  autorun : Bool
  deriving DecidableEq, Repr

/-- An entry of the failure history (R506). -/
structure Hist where
  code : BitVec 16
  cls : Byte
  triad : Byte
  poh : Word
  cyc : Nat
  tb : Nat
  argA : Word
  argB : Word
  deriving DecidableEq, Repr

/-- The Logbook's volatile side (R498 to R509): counts since the last update by Logbook byte offset, history entries
still to be written, what the last START and update found, and the copy that the last good update left chosen. `skew` is
what a twin's TB has been set ahead by (R415): times here count from START by the module's own ticks. -/
structure Log where
  vol : SMap Nat
  hist : List Hist
  lost : Byte
  wfail : Bool
  bad : Bool
  chosen : Fin 2
  seq : Word
  poh : Word
  skew : Int
  hourFrom : Nat
  secFrom : Nat
  minFrom : Nat
  deriving DecidableEq, Repr

/-- What keeps its contents without power: FRAM, sealed key store, program store, stored settings (R163, R204, R210,
R389, R475, R497, R498). A Logbook copy is a sparse byte memory of 128 KiB. -/
structure Nv where
  autorun : Bool
  forceFull : Bool
  maxAge : BitVec 12
  stageSize : BitVec 12
  sealed : Vector (Option (List Byte × Word)) 8
  store : Option Image
  logs : Vector (SMap Byte) 2
  recs : Vector TestRec 2
  deriving DecidableEq, Repr

end Sys2Proof.Machine
end

