-- ==== Sys2Proof/Machine/Reset.lean ====
section
/-!
DEFINITION. The reset value of every block: what the register tables of the spec give, and, where they give none,
zero or empty (log entry 1).
-/
namespace Sys2Proof.Machine

open Sys2Proof

/-- A core with empty architectural state (R84, R102) that holds no position. -/
def Core.init : Core :=
  { st := .reserve, g := Vector.replicate 32 0#32, ib := 0#32, pc := 0#22, stack := [], count := 0, seq := 1#32,
    sig := 0#64, run := .idle, out := none, svq := 0, closeMark := none, nmiSave := none, nmiCode := 0, sram := [],
    ken := .none, kenResult := none, kenAt := 0, kenQuick := false, due := false, resSince := 0, retest := false, nv := none, nvSince := 0,
    nvIdle := [] }

def Voter.init : Voter := { cur := [], wait := [] }

def Heel.init : Heel :=
  { st := .none, bank := none, pages := [], dirty := [], unres := [], pass := 0, fix := 0, slow := false,
    noRes := false }

def Capture.init : Capture :=
  { valid := false, present := 0#3, kind := 0#4, event := 0#8, seq := 0#32, cyc := 0#32, addr := 0#32,
    sigs := Vector.replicate 3 0#64, arrs := Vector.replicate 3 0#32 }

def TrapCap.init : TrapCap :=
  { valid := false, lanes := 0#3, code := 0#8, pc := 0#22, addr := 0#32, cyc := 0#32 }

def Hnd.init : Hnd :=
  { isOpen := false, taken := false, code := 0, budgetFrom := 0, nmis := [], active := none, retn := 0#3,
    late := Vector.replicate 3 0 }

/-- A triad that is not formed (R61); `p` is the partition TRI_STATE_n.PART shows at reset. -/
def Triad.init (p : Option PartId) : Triad :=
  { mode := .notFormed, odd := none, part := p, lastEvt := 0, cores := Vector.replicate 3 none, commits := 0,
    commitsLast := 0#32, lagRun := (0#2, 0), lagLast := (0#2, 0), lagWarned := false, cap := Capture.init,
    trap := TrapCap.init, voter := Voter.init, heel := Heel.init, hnd := Hnd.init, pairSince := 0,
    leashing := false, stopCycle := none }

/-- The shared TRI registers at reset (R60, R97 to R100, R136). -/
def Tri.init : Tri :=
  { lagWinSh := 4#8, lagWinAct := 4#8, lagWarnSh := 2#8, lagWarnAct := 2#8, dynFault := 0#28,
    pairLimitSh := 0#16, pairLimitAct := 0#16, finalPagesSh := 0x80#11, finalPagesAct := 0x80#11,
    retestSh := 0x18#8, retestAct := 0x18#8, unleashSh := 0#5, unleashAct := 0#5, hoValid := false, hoStatus := 0#2,
    hoTarget := 0#3, hoPart := 0#3, hoSwitched := [], nvqSh := Vector.replicate 16 0#32,
    nvqAct := Vector.replicate 16 0#32, nvPages := Vector.replicate 16 [], nvLimited := Vector.replicate 16 false,
    scrubSh := 0x18#8, scrubAct := 0x18#8, scrubPeriod := 0x18#8, scrubRounds := 0#24, scrubFrom := 0,
    scrubFix := 0#32, nvTrapValid := false, nvTrapCore := 0#4, nvTrapPart := 0#3, nvTrapCode := 0#8,
    nvTrapPc := 0#22, nvTrapAddr := 0#32, nvTrapCyc := 0#32, engineLast := Vector.replicate 3 0,
    finalRan := false }

def Part.init : Part :=
  { st := .none, last := 0, isolated := false, solveMax := 0, budgetSh := 0#20, budgetAct := 0#20,
    budgetArmed := 0#20, entered := false, released := false, releaseTb := 0, releaseCyc := 0, emitting := false,
    emitStepped := false, substOut := false, cpySubst := false, lostDue := false, ovlLast := 0, svyUse := false }

def NvPart.init : NvPart := { st := .none, last := 0, budgetSh := 0#20, budgetAct := 0#20 }

/-- The scan controller at reset (R162): mode START, T_cyc 20.0 ms. -/
def Scn.init : Scn :=
  { mode := .start, prev := none, cause := 0, tcycSh := 0xC8#14, tcycAct := 0xC8#14, safeExitSh := false,
    safeExitAct := false, commEn := false, stepPending := false, stepped := false, phase := 0#2, cycle := 0,
    bTb := 0, nextB := 0, bndEnd := 0#16, agreeUs := 0#16, agreeTb := 0, agreed := false, safeThisCycle := false,
    ovrValid := false, ovrPart := 0#3, ovrKind := 0#2, ovrIso := false, ovrCyc := 0#32, watchdogOvr := [], overran := false,
    reqs := [], imageValid := false }

def LaneImg.init : LaneImg :=
  { cur := [], cpy := [], ints := Vector.replicate 5 [], ovl := Vector.replicate 5 [], qual := [] }

def Pim.init : Pim :=
  { img := Vector.replicate 3 LaneImg.init, forceTab := Vector.replicate 3 [], cmds := [], substCnt := 0, capValid := false,
    capReason := 0#4, capSig := ⟨false, 0⟩, tmoSh := 0#16, tmoAct := 0#16, tmoCnt := 0, counted := false,
    hreq := [], hsnap := [], linkLost := false, hostLost := false, lastHold := [] }

/-- OLC at reset (R192, R209): WAIT_LIMIT 0x40, KEY_REQ 1, MAX_US 0x03E8. -/
def Olc.init : Olc :=
  { st := .idle, result := 0#8, maxUsSh := 0x3E8#16, maxUsAct := 0x3E8#16, keyReqSh := true, keyReqAct := true,
    waitSh := 0x40#8, waitAct := 0x40#8, header := none, recv := [], bytes := Vector.replicate 3 [], staged := none,
    images := Vector.replicate 3 none, rollback := none, rolling := false, waitCnt := 0, planMatch := 0#32, planNew := 0#32,
    planRemoved := 0#32, planRetyped := 0#32, planBytes := 0#32, planUs := 0, space := [], accepting := false,
    carryUs := 0, actCyc := 0#32 }

def SvyQ.init : SvyQ :=
  { words := [], closeBy := 0, closeLen := 0, quotaSh := 0xCCC#15, quotaAct := 0xCCC#15, areaFull := false, discarded := false }

/-- The Survey unit at reset (R245): LAG 0x14, quotas 0x0CCC. -/
def Svy.init : Svy :=
  { cfgSh := 0x14#32, cfgAct := 0x14#32, odd := none, failed := false, round := 0,
    queues := Vector.replicate 5 SvyQ.init, pres := [], done := [], agreedAt := [], table := Vector.replicate 3 [],
    startUs := 0#20, roundStart := 0, lastReqs := 0#15, lastGranted := 0#15, lastStart := 0#20, lastEnd := 0#20,
    roundMax := 0#16, capValid := false, capEvent := 0#8, capTriad := 0#3, capLane := 0#2, capRoute := 0#15,
    capIndex := 0#15, capCyc := 0#32 }

def Chain.init : Chain :=
  { cls := none, band := false, runCls := none, runLen := 0, bandLen := 0, cnt := 0, div := 0, brkRun := 0,
    latched := none, latchedBand := false }

/-- An input at reset (R272): DIO_IN_CFG 0x80A2_0BB8. -/
def InCh.init : InCh :=
  { cfgSh := 0x80A20BB8#32, cfgAct := 0x80A20BB8#32, chains := Vector.replicate 3 Chain.init, val := false,
    fault := false, brk := false, band := false, differed := false, differRaised := false, bandRaised := false,
    trans := 0#32 }

def OutCh.init : OutCh :=
  { code := false, chips := Vector.replicate 3 0#15, want := false, credit := none, stopAt := 0, fbLatch := false, tfail := false,
    ovld := false, pulse := false, brkTest := false, high := Vector.replicate 3 false, low := Vector.replicate 3 false, coil := false,
    coilFrom := none, heldHigh := false, heldLow := false,
    termB := false, statB := 0#32, restoring := false, restFrom := 0, stuck := false, switched := 0#32,
    second := false, waitOn := none, latch := false, emitted := false, silFrom := 0, silFired := false,
    silModeSh := 0#2, silModeAct := 0#2, silMsSh := 0x64#10, silMsAct := 0x64#10, vital := true, gang := 0#2,
    exer := false, envOk := false }

/-- DIO at reset (R272): INTERVAL 0x0258. -/
def Dio.init : Dio :=
  { ins := Vector.replicate 48 InCh.init, outs := Vector.replicate 28 OutCh.init, iocfgDiff := false,
    fieldLow := false, fieldVolt := 0#16, intervalSh := 0x258#16, intervalAct := 0x258#16, aborted := 0#16,
    pos := 0, nextPos := 0, visits := 0, gridFrom := 0, chipAt := 0, test := none, last := 0#2,
    io := none }

def Brk.init : Brk :=
  { phase := 0#2, last := 0#2, due := false, overdue := false, passAt := 0, graceAt := none, startB := 0, ref := 0,
    starting := false, ending := false }

def Saf.init : Saf :=
  { desc := none, cfgDiff := false, accepted := 0#16, reason := 0#4, source := 0#2, inA := .waitOff, inB := .waitOff,
    armAt := none, hostAccepted := false, pulseDue := false, leave := false, pend := Vector.replicate 48 false,
    opened := Vector.replicate 48 false, proofDone := false, fbTerm := Vector.replicate 24 false,
    fbFrom := Vector.replicate 24 none, brk := Vector.replicate 4 Brk.init, exer := none, exerOn := false,
    exerEnd := 0, dlaActive := false, dlaSt := 0#32, dlaBack := false }

/-- The layout registers of a bus at reset (R345). -/
def UbLayout.init : UbLayout :=
  { cfg := 0x27#32, cyc := 0x2710#32, static := 0x00480001#32, dynseg := 0x00080000#32, timing := 0xFE020303#32,
    sync := 0x01F40004#32, cold := 0x00040001#32 }

/-- A channel of which nothing is counted. -/
def UbJam.init : UbJam := { good := [], bad := [], busy := false, run := 0, clean := 0 }

def Ub.init : Ub :=
  { lay := UbLayout.init, layAct := UbLayout.init, st := .off, cycFrom := 0, cycAtB := false, cycNo := 0,
    closed := true, busCyc := 0#32,
    count := 0, keeperOfs := 0#16, keeperSlot := 0#11, errA := (0#16, 0#16), errB := (0#16, 0#16), sbValid := false,
    sbCh := false, sbStation := 0#10, sbId := 0#13, sbDev := 0#32, sbCyc := 0#32, stnSel := 0#10, stations := [],
    dynSh := Vector.replicate 5 0#13, dynAct := Vector.replicate 5 0#13,
    dynLeft := Vector.replicate 5 0, minis := 0, lag := 0, held := none, wp := Vector.replicate 8 0#32, wpAct := Vector.replicate 8 0#32,
    wpCap := Vector.replicate 8 0#32, wpSt := 0#8, wpFired := 0#8, next := [], cur := [], ctrl := [], dyn := [],
    copyDue := Vector.replicate 5 false, copyCyc := Vector.replicate 5 0, curValid := Vector.replicate 5 none, rx := [],
    heardRx := [], snap := [], claim := 0, listenFrom := 0,
    backoffFrom := 0, heard := false, lowSeen := false, errSeen := false, claimSent := false, claimFrom := 0,
    jam := Vector.replicate 2 UbJam.init, jamA := false, jamB := false, sfpA := false, sfpB := false, downA := false, downB := false, sbRaised := false,
    differRaised := false, precRaised := false, silentRaised := false, foreignRaised := false, sent := none }

/-- A CAN channel at reset (R373): EN and AUTO_REC 1, the bit timing of the register tables. -/
def Can.init : Can :=
  { cfgSh := 9#5, cfgAct := 9#5, nbtSh := 0x013E0F0F#32, nbtAct := 0x013E0F0F#32, dbtSh := 0x001C0909#32,
    dbtAct := 0x001C0909#32, tdcSh := 0#32, tdcAct := 0#32, st := .off, recovering := false, txErr := 0, rxErr := 0,
    tdcOvf := false, tdcv := 0#5, clkIo := false, rxCnt := 0#32, txCnt := 0#32, rxLost := 0#32, errTx := 0#16,
    errRx := 0#16, collide := 0#16, busOffs := 0#16, fill := 0#13, maxFill := 0#13, buf := [], snap := [],
    snapSt := [], lostSince := 0, snapLost := 0, lostFlag := false, rxSeq := 0#16, ovfRaised := false,
    suspect := false, mem := [], ctl := [], reqs := [], waiting := [], stat := [], wireSof := 0, enTill := 0,
    enLanes := Vector.replicate 3 false }

/-- A host ring at reset (R399): SIZE 1, QUOTA 0x0040, PHASE 1. -/
def Ring.init : Ring :=
  { sqBase := 0#64, cqBase := 0#64, en := false, vec := 0#4, nvpart := 0#3, size := 1#4, quotaSh := 0x40#13,
    quotaAct := 0x40#13, st := .disabled, phase := true, sqHead := 0, sqTail := 0, cqTail := 0, cqHead := 0,
    sqDb := 0#32, cqDb := 0#32, lost := 0#4, lostFlag := false, cqLostRaised := false, seqLast := 0#32, fetched := 0, cq := [],
    waitq := [], outs := [] }

/-- Configuration space after a reset of the function (R374), at the values that PCI Express gives it (log entry 110). -/
def Pcie.init : Pcie :=
  { msixEn := false, funcMask := false, d3hot := false, maxPayload := 128, maxRead := 512, aerUncorr := 0#32,
    aerCorr := 0#32 }

def Hst.init : Hst :=
  { pcie := Pcie.init, scanOpen := false, link := false, sd := false, keys := false, stopped := false, tagFail := 0#16, nonce := 0#64,
    rings := Vector.replicate 8 Ring.init, seqs := Vector.replicate 8 (Vector.replicate 8 0#32),
    slots := Vector.replicate 8 none, keyStat := 0#2, keyStores := [], dmaOut := none, msix := [], pba := 0#16,
    sent := Vector.replicate 16 0, statMem := [], statCtl := [], msgs := [] }

def RackPart.init : RackPart :=
  { st := .absent, typ := 0#16, matched := false, life := 0#32, lifeMoved := false, lifeCnt := 0, nacked := false,
    nackCnt := 0, inOfs := 0, inLen := 0, data := none, snap := none, held := true, left := false }

/-- The rack bus at reset (R426): EQ LIMIT 0x0400. SLOT_ID is read from pins; slot 0, position A here (log entry 1). -/
def Rck.init : Rck :=
  { twinEnSh := false, twinEnAct := false, autoSh := false, autoAct := false, role := .single, sid := 0#4,
    pres := 0#16, parts := Vector.replicate 16 RackPart.init, given := 0#16, rcvd := 0#16, answer := none,
    peer := false, transfer := false, lock := false, equal := false, peerEqual := false, peerMet := false, limitSh := 0x400#16,
    limitAct := 0x400#16, lastKib := 0#12, written := [], owed := [], building := none, stream := none,
    streamWords := [], readHalves := 0, rxWords := [], loaded := false, applied := none, appliedId := 0#32,
    ofsNs := 0#32, bndMissed := 0, hoCause := 0#2, hoLost := 0#2, hoCyc := 0#28, mirNext := [], mirCur := [],
    twinWord := 0#32, takeover := false, dual := false, dualSeen := false, handCyc := 0, safeDue := false, roleFrom := 0, holdOver := none, holdEmit := none,
    restrict := none, solveFrom := 0, emitDue := false, emitSent := 0, reqs := 0#16, gnt := none, lastSlot := 0, ownLast := false }

/-- The clocks at reset (R447): IO feeds PLL-T, RET_WIN 0x40, the dividers and spread of the tables. -/
def Clk.init : Clk :=
  { srcIo := true, switchTo := none, xoStable := false, xoInRange := false, xoFailed := false, ioOk := true,
    lockT := false, lockS := false, lockC := false, ppsOk := false, refLock := false, escape := false, fails := 0#16,
    monCount := 0#11, goodWins := 0, retReq := false, retWinSh := 0x40#8, retWinAct := 0x40#8, steerSh := false,
    steerAct := false, autoSh := false, autoAct := false, sscSh := 0x14001400#32, sscAct := 0x14001400#32,
    divSh := 0x8402#32, divAct := 0x8402#32, gateReq := 0#8, gatePend := 0#8, gateClosed := 0#8, gateForced := 0#8,
    gateSince := Vector.replicate 8 0, heldCan := Vector.replicate 4 none, heldUb := Vector.replicate 2 none,
    heldRck := none, noRefFrom := none, trim := 0#16, ofs := 0#16, pps := 0#64,
    rsi := Vector.replicate 3 0#16, rsiMin := Vector.replicate 3 0xFFFF#16, rsiOk := Vector.replicate 3 false,
    rsiSeen := Vector.replicate 3 false, slowRaised := Vector.replicate 3 false, rsiCyc := 0,
    monSeen := false, stopped := false, heldIo := Vector.replicate 2 false }

def CrcU.init : CrcU :=
  { modeSh := 0#2, modeAct := 0#2, ie := false, vec := 0#4, run := 0#64, dmaOfs := 0#32, dmaBank := 1#2,
    dmaLen := 0#24, exp := 0#64, count := 0#16, ecc := false, dropped := false, busy := false, ok := false,
    mismatch := false, checkDue := false, goOfs := 0#32, goBank := 1#2, goLen := 0#24, late := 0#16, done := 0#16, doneRun := 0#16, jobs := [] }

def CrcCap.init : CrcCap :=
  { valid := false, bank := 0#2, part := 0#3, unit := 0#3, job := 0#5, cyc := 0#32 }

def Err.init : Err :=
  { vq := [], nq := [], nvLost := 0#16, lostPend := 0, lostFlag := false, mask := 0#19, cntF := 0#32, cntV := 0#32,
    cntN := 0#32, ffValid := false, ffCode := 0#16, ffCyc := 0#32, lastCls := 0#2, lastCode := 0#16 }

/-- A blank FRAM area read as a test record: not intact (R476). -/
def TestRec.init : TestRec :=
  { format := 0#32, result := 0#8, kind := 0#8, cause := 0#16, poh := 0#32, fw := 0#32, serial := 0#32,
    rsiMin := 0#16, rsiMax := 0#16, temp := 0#16, failBlocks := 0#32, failCores := 0#16, check := 0#32 }

/-- BST at reset (R497): no block under test, PHASE 1. -/
def Bst.init : Bst :=
  { testFrom := none, part := 0, held := [], rsiLo := 0#16, rsiHi := 0#16, maxAge := 0#12, forceFull := false,
    drained := false, block := 0xFF#8, pct := 0#8, reason := 0#4, wait := false, retryAt := 0, start := 0#2, phase := 1#3, ph := .off,
    retryQuick := false, age := 0#32, used := none, sig := 0#64, temp := 0#16, invRaised := false, noTest := false,
    autorun := false }

def Log.init : Log :=
  { vol := [], hist := [], lost := 0#8, wfail := false, bad := false, chosen := 0, seq := 0#32, poh := 0#32,
    skew := 0, hourFrom := 0, secFrom := 0, minFrom := 0 }

/-- What a new module holds (R163, R210, R497): AUTORUN 0, FORCE_FULL 1, MAX_AGE 0x2D0, 1,024 MiB of staging. -/
def Nv.init : Nv :=
  { autorun := false, forceFull := true, maxAge := 0x2D0#12, stageSize := 0x400#12, sealed := Vector.replicate 8 none,
    store := none, logs := Vector.replicate 2 [], recs := Vector.replicate 2 TestRec.init }

/-- The state of core `k` at reset on a variant: TRI_CORE_ST reads as after first formation (R63). -/
def Core.initAt (v : Variant) (k : Nat) : Core :=
  let n := if v = .trv10 then 10 else 16
  { Core.init with st := if k + 1 < n then .lane else if k + 1 = n then .reserve else .absent }

end Sys2Proof.Machine
end

