-- ==== Sys2Proof/Machine/State.lean ====
section
/-!
DEFINITION. The state of the module as plain data, the queue of waiting commands among it, the reasons to stop, and
the module right after reset, before power-on has run.
-/
namespace Sys2Proof.Machine

open Sys2Proof

/-- Reasons to stop with a fault. No meaning of this model raises one: every access the spec calls wrong is answered
by a trap, an event or an ignored write, which are effects. -/
inductive Fault where
  deriving DecidableEq, Repr

/-- Reasons to refuse a command. -/
inductive Refusal where
  /-- Raised only by an arm of `exec` whose command has no meaning yet. Safe: nothing is claimed of the command. -/
  | notModelled (mnemonic : String)
  deriving DecidableEq, Repr

/-- The state of the module. `variant` and `nv` outlive a power cycle. `banks` are the three lane banks, 4 GiB each;
`ecc` lists, bank by bank, the 64-bit words (by offset) whose ECC check fails, `eccSoft` those in which it corrects a
single-bit error, `sysEcc` and `sysSoft` the same for the words of the system area and of a staged change set, named as the
scrubber names them: conditions of the DRAM that no command sets. `absent` lists the absent units that have raised ABSENT_UNIT in this cycle. -/
structure State where
  variant : Variant
  tb : Nat
  banks : Vector (SMap Byte) 3
  ecc : Vector (List Nat) 3
  eccSoft : Vector (List Nat) 3
  sysEcc : Vector (List ScrubTarget) 3
  sysSoft : Vector (List ScrubTarget) 3
  cores : Vector Core 16
  triads : Vector Triad 5
  tri : Tri
  scn : Scn
  parts : Vector Part 5
  nvs : Vector NvPart 8
  pim : Pim
  olc : Olc
  svy : Svy
  dio : Dio
  saf : Saf
  ub : Vector Ub 2
  can : Vector Can 4
  hst : Hst
  rck : Rck
  clk : Clk
  crc : Vector CrcU 8
  crcCap : CrcCap
  err : Err
  bst : Bst
  log : Log
  nv : Nv
  absent : List Nat
  nonceDraws : Nat
  freeDraws : Nat
  pending : List Instr
  deriving DecidableEq, Repr

/-- The cores at reset on a variant. -/
def Core.resetAll (v : Variant) : Vector Core 16 :=
  #v[Core.initAt v 0, Core.initAt v 1, Core.initAt v 2, Core.initAt v 3, Core.initAt v 4, Core.initAt v 5,
     Core.initAt v 6, Core.initAt v 7, Core.initAt v 8, Core.initAt v 9, Core.initAt v 10, Core.initAt v 11,
     Core.initAt v 12, Core.initAt v 13, Core.initAt v 14, Core.initAt v 15]

/-- The check-value units at reset: every RES reads 0 (R457). -/
def CrcU.resetAll : Vector CrcU 8 :=
  #v[{ CrcU.init with run := crcResetOf 0 }, { CrcU.init with run := crcResetOf 1 },
     { CrcU.init with run := crcResetOf 2 }, { CrcU.init with run := crcResetOf 3 },
     { CrcU.init with run := crcResetOf 4 }, { CrcU.init with run := crcResetOf 5 },
     { CrcU.init with run := crcResetOf 6 }, { CrcU.init with run := crcResetOf 7 }]

/-- Reset of a module of a given variant with given non-volatile contents; the queue is kept, power does not reach it. -/
def State.resetOf (v : Variant) (nv : Nv) (q : List Instr) : State :=
  { variant := v, tb := 0, banks := Vector.replicate 3 [], ecc := Vector.replicate 3 [],
    eccSoft := Vector.replicate 3 [], sysEcc := Vector.replicate 3 [], sysSoft := Vector.replicate 3 [], cores := Core.resetAll v,
    triads := #v[Triad.init (some 0), Triad.init (some 1), Triad.init (some 2), Triad.init (some 3),
                 Triad.init (some 4)],
    tri := Tri.init, scn := Scn.init, parts := Vector.replicate 5 Part.init, nvs := Vector.replicate 8 NvPart.init,
    pim := Pim.init, olc := Olc.init, svy := Svy.init, dio := Dio.init, saf := Saf.init,
    ub := Vector.replicate 2 Ub.init, can := Vector.replicate 4 Can.init, hst := Hst.init, rck := Rck.init,
    clk := Clk.init, crc := CrcU.resetAll, crcCap := CrcCap.init, err := Err.init, bst := Bst.init,
    log := Log.init, nv := nv, absent := [], nonceDraws := 0, freeDraws := 0, pending := q }

/-- The module right after reset: a new TRV-16 with an empty program store, before POWER_ON. The variant and the
contents of the non-volatile stores are log entries 1 and 2. -/
def State.reset : State := State.resetOf .trv16 Nv.init []

end Sys2Proof.Machine
end

