-- ==== Sys2Proof/Machine/Ops.lean ====
section
/-!
DEFINITION. The named operations over the state that every block shares: places in vectors, the capabilities of the
variant, banks byte by byte, what the active image says, and who owns what.
-/
namespace Sys2Proof.Machine

open Sys2Proof

/-- Every index below `n`, rising. -/
def fins (n : Nat) : List (Fin n) := List.finRange n

/-- A vector with one place replaced. -/
def vset {α : Type} {n : Nat} (v : Vector α n) (i : Fin n) (x : α) : Vector α n := v.set i.val x i.isLt

/-- A vector with one place changed. -/
def vupd {α : Type} {n : Nat} (v : Vector α n) (i : Fin n) (f : α → α) : Vector α n := vset v i (f v[i])

/-- The vector of a function's values. -/
def vgen {α : Type} (n : Nat) (f : Fin n → α) : Vector α n := ⟨((fins n).map f).toArray, by simp [fins]⟩

/-- A function at every place of a vector. -/
def vmap {α β : Type} {n : Nat} (f : α → β) (v : Vector α n) : Vector β n := vgen n (fun i => f v[i])

/-- One more, unless the register is full already. -/
def satInc {n : Nat} (x : BitVec n) : BitVec n := if x = BitVec.allOnes n then x else x + 1#n

/-- A number in a register of `n` bits that saturates. -/
def satOf (n x : Nat) : BitVec n := if x < 2 ^ n then BitVec.ofNat n x else BitVec.allOnes n

/-- The TB ticks of a microsecond, a millisecond and a second (R429). -/
def usT : Nat := 100
def msT : Nat := 100000
def secT : Nat := 100000000

/-- Bit `i` of a register as a Bool. -/
def bit {n : Nat} (x : BitVec n) (i : Nat) : Bool := x.getLsbD i

/-- The field of a word from bit `lo`, `w` bits wide, as a number. -/
def fld {n : Nat} (x : BitVec n) (lo w : Nat) : Nat := (x.toNat >>> lo) % 2 ^ w

/-- A register with one bit set or cleared. -/
def bitSet {n : Nat} (x : BitVec n) (i : Nat) (b : Bool) : BitVec n :=
  if b then x ||| (1#n <<< i) else x &&& ~~~(1#n <<< i)

/-- An element at the end of a list unless it is there already. -/
def addNew {α : Type} [DecidableEq α] (x : α) (l : List α) : List α := if x ∈ l then l else l ++ [x]

/-- An element in its place in a rising list of numbers, unless it is there already. -/
def insNat (x : Nat) : List Nat → List Nat
  | [] => [x]
  | y :: l => if x = y then y :: l else if x < y then x :: y :: l else y :: insNat x l

/-- The majority of three. -/
def maj3 (v : Vector Bool 3) : Bool := v[0] && v[1] || v[0] && v[2] || v[1] && v[2]

/-- Folding a state change over a list. -/
def forEach {α σ : Type} (l : List α) (f : α → σ → σ) (s : σ) : σ := l.foldl (fun s x => f x s) s

/-! ### Capabilities (R5, R6) -/

/-- The cores of a variant. -/
def Variant.cores : Variant → Nat
  | .trv10 => 10
  | _ => 16

/-- The triads of a variant. -/
def Variant.triads : Variant → Nat
  | .trv10 => 3
  | _ => 5

/-- Whether the variant has the Survey unit. -/
def Variant.svy : Variant → Bool
  | .trv10 => false
  | _ => true

/-- Whether the variant has UBB. -/
def Variant.ubb : Variant → Bool
  | .trv10 => false
  | _ => true

/-- Whether the variant has local I/O. -/
def Variant.dio : Variant → Bool
  | .trv16b => false
  | _ => true

/-- The CAN channels of a variant. -/
def Variant.cans : Variant → Nat
  | .trv10 => 2
  | _ => 4

/-- ID_CAPS (R6). -/
def Variant.caps : Variant → Word
  | .trv16 => 0x0107FFB0#32
  | .trv16b => 0x02077FB0#32
  | .trv10 => 0x03079A6A#32

/-- Whether a Ubuno bus is present. -/
def hasUb (s : State) (b : Fin 2) : Bool := b.val = 0 || s.variant.ubb

/-- Whether a CAN channel is present. -/
def hasCan (s : State) (c : Fin 4) : Bool := c.val < s.variant.cans

/-! ### Places in the state -/

def modCore (c : CoreId) (f : Core → Core) (s : State) : State := { s with cores := vupd s.cores c f }
def modTriad (t : TriadId) (f : Triad → Triad) (s : State) : State := { s with triads := vupd s.triads t f }
def modPart (p : PartId) (f : Part → Part) (s : State) : State := { s with parts := vupd s.parts p f }
def modNv (k : NvId) (f : NvPart → NvPart) (s : State) : State := { s with nvs := vupd s.nvs k f }
def modOut (ch : Chan) (f : OutCh → OutCh) (s : State) : State :=
  { s with dio := { s.dio with outs := vupd s.dio.outs ch f } }
def modIn (n : Fin 48) (f : InCh → InCh) (s : State) : State :=
  { s with dio := { s.dio with ins := vupd s.dio.ins n f } }
def modScan (f : Scn → Scn) (s : State) : State := { s with scn := f s.scn }
def modUb (b : Fin 2) (f : Ub → Ub) (s : State) : State := { s with ub := vupd s.ub b f }
def modCan (c : Fin 4) (f : Can → Can) (s : State) : State := { s with can := vupd s.can c f }
def modRing (r : Fin 8) (f : Ring → Ring) (s : State) : State :=
  { s with hst := { s.hst with rings := vupd s.hst.rings r f } }
def modCrc (u : Fin 8) (f : CrcU → CrcU) (s : State) : State := { s with crc := vupd s.crc u f }
def modBrk (k : Fin 4) (f : Brk → Brk) (s : State) : State :=
  { s with saf := { s.saf with brk := vupd s.saf.brk k f } }
def modSlot (i : Fin 16) (f : RackPart → RackPart) (s : State) : State :=
  { s with rck := { s.rck with parts := vupd s.rck.parts i f } }
def modImg (l : Lane) (f : LaneImg → LaneImg) (s : State) : State :=
  { s with pim := { s.pim with img := vupd s.pim.img l f } }
def modVoter (t : TriadId) (f : Voter → Voter) : State → State :=
  modTriad t (fun x => { x with voter := f x.voter })
def modHeel (t : TriadId) (f : Heel → Heel) : State → State :=
  modTriad t (fun x => { x with heel := f x.heel })
def modHnd (t : TriadId) (f : Hnd → Hnd) : State → State :=
  modTriad t (fun x => { x with hnd := f x.hnd })

/-! ### The active image -/

/-- The image of a vital partition in the image that runs. -/
def partImg (s : State) (p : PartId) : Option PartImage := s.olc.active.bind (fun im => im.parts[p])

/-- The descriptor of a vital partition in the image that runs. -/
def partDesc (s : State) (p : PartId) : Option PartDesc := (partImg s p).map (·.desc)

/-- The descriptor of a non-vital partition in the image that runs. -/
def nvDesc (s : State) (k : NvId) : Option NvDesc := (s.olc.active.bind (fun im => im.nvs[k])).map (·.desc)

/-- The triad that carries a partition (R17, R95). -/
def triadOf (s : State) (p : PartId) : Option TriadId := (fins 5).find? (fun t => s.triads[t].part = some p)

/-- Who owns a destination (R21). -/
def ownerOf (s : State) (d : Dest) : Option PartId :=
  (s.olc.active.bind (fun im => im.owners.find? (fun o => o.dest = d))).map (·.owner)

/-- Which lanes' banks have a partition as a destination's owner in their copies of the ownership table (R14, R51). -/
def laneOwners (s : State) (d : Dest) (p : PartId) : Vector Bool 3 :=
  vmap (fun im => im.any (fun x => x.owners.any (fun o => o.dest = d && o.owner = p))) s.olc.images

/-- Whether a triad runs: formed as TRIAD or PAIR. -/
def formed (s : State) (t : TriadId) : Bool := s.triads[t].mode = .triad || s.triads[t].mode = .pair

/-- The partition a triad carries and which is not stopped, while the triad runs: the running partition of R461. -/
def runningPart (s : State) (t : TriadId) : Option PartId :=
  if formed s t then s.triads[t].part.bind (fun p => if s.parts[p].st = .stopped || s.parts[p].st = .none then none
    else some p) else none

/-- The triad and lane that a core holds. -/
def laneOf (s : State) (c : CoreId) : Option (TriadId × Lane) :=
  (fins 5).findSome? (fun t => (fins 3).findSome? (fun l => if s.triads[t].cores[l] = some c then some (t, l) else none))

/-- The Gazetteer entry of a signal (R195). -/
def gazOf (s : State) (g : Sig) : Option GazEntry :=
  s.olc.active.bind (fun im => im.gaz.find? (fun e => e.sig = some g))

/-- The bank region of a vital partition: first offset and size in bytes (R104). -/
def regionOf (s : State) (p : PartId) : Option (Nat × Nat) :=
  (partDesc s p).map (fun d => (d.baseMib * 1048576, d.sizeMib * 1048576))

/-- The partition whose region holds a bank offset. -/
def partAt (s : State) (ofs : Nat) : Option PartId :=
  (fins 5).find? (fun p => match regionOf s p with
    | some (b, n) => decide (b ≤ ofs ∧ ofs < b + n)
    | none => false)

/-! ### Signal names and areas (R112, R164) -/

/-- The key of a signal in the maps of the process image. -/
def Sig.key (g : Sig) : Nat := 2 * g.addr + (if g.word then 1 else 0)

/-- The signal of a key. -/
def Sig.ofKey (k : Nat) : Sig := ⟨k % 2 = 1, k / 2⟩

/-- ARG_A of a PIM event: the address, bit 31 for a word signal (R471). -/
def Sig.arg (g : Sig) : Word := w32 (g.addr + (if g.word then 0x80000000 else 0))

/-- The area of an address that lies in range (R164). -/
def Sig.area (g : Sig) : Area :=
  if g.word then
    if g.addr < 0x20000 then .input else if g.addr < 0x40000 then .output else if g.addr < 0x50000 then .boundary
    else if g.addr < 0x60000 then .hostReq else .internal
  else
    if g.addr < 0x100000 then .input else if g.addr < 0x200000 then .output else if g.addr < 0x280000 then .boundary
    else if g.addr < 0x300000 then .hostReq else .internal

/-- Whether a signal address is valid (R112). -/
def Sig.inRange (g : Sig) : Bool := if g.word then g.addr < 524288 else g.addr < 5242880

/-! ### The slice of the process image in a region (R70, R164, R168) -/

/-- The pages of a partition's region. -/
def regionPages (s : State) (p : PartId) : Nat := match partDesc s p with
  | some d => 256 * d.sizeMib
  | none => 0

/-- The first page of a region's overlay: the overlay takes its top 1,280 KiB, 320 pages (R168). -/
def overlayPage (s : State) (p : PartId) : Nat := regionPages s p - 320

/-- The first page that holds no word of the program area. -/
def firstDataPage (s : State) (p : PartId) : Nat := match partDesc s p with
  | some d => (4 * d.progWords + 4095) / 4096
  | none => 0

/-- The page, counted from the start of the region, in which a partition's slice holds a signal (log entry 7): an
overlay value in the overlay, an internal or output signal among the other data pages. The NEXT copy of a boundary signal
lies in the system area; its page is counted on from the end of the region. -/
def slicePage (s : State) (p : PartId) (g : Sig) : Nat :=
  let n := Config.imagePage p.val g.word g.addr
  let lo := firstDataPage s p
  let hi := overlayPage s p
  match g.area with
  | .boundary => regionPages s p + Config.boundaryPage p.val g.word g.addr
  | .internal => if lo < hi then lo + n % (hi - lo) else lo
  | .output => if lo < hi then lo + n % (hi - lo) else lo
  | _ => hi + n % 320

/-- The byte within that page at which the signal's four bytes stand (log entry 7). -/
def slicePlace (p : PartId) (g : Sig) : Nat := 4 * (Config.imagePlace p.val g.word g.addr % 1024)

/-! ### Banks (R13, R14) -/

/-- Microseconds between two ticks, saturating at 20 bits (SCN_NVPART_k, SCN_PART_n). -/
def usSince (from_ now : Nat) : Nat := let u := (now - from_) / 100; if u < 1048576 then u else 1048575

/-- The address of an instance with its header lies in a region window of a size in bytes, aligned (step 2 of R116). -/
def instOk (size : Nat) (v : Word) : Bool :=
  v.toNat % 16 = 0 && decide (0x40000000 ≤ v.toNat ∧ v.toNat - 0x40000000 + 16 ≤ min size 0x40000000)

/-! ### Fields of register words -/

/-- A word from fields: lowest bit and value. -/
def pack (fs : List (Nat × Nat)) : Word := w32 (fs.foldl (fun a f => a + f.2 * 2 ^ f.1) 0)

/-- A field of a write if it lies in its range, else what stands. -/
def pick {n : Nat} (v : Word) (lo w min_ max_ : Nat) (old : BitVec n) : BitVec n :=
  if min_ ≤ fld v lo w ∧ fld v lo w ≤ max_ then BitVec.ofNat n (fld v lo w) else old

/-- A field of a write that takes every value. -/
def take_ (n : Nat) (v : Word) (lo w : Nat) : BitVec n := BitVec.ofNat n (fld v lo w)

/-! ### Banks -/

/-- The first bank offset of the system area (R14). -/
def sysArea : Nat := 0xE0000000

/-- A byte of a bank; an unlisted byte reads 0, as the clearing of R473 leaves it (log entry 3). -/
def bankByte (s : State) (l : Lane) (ofs : Nat) : Byte := SMap.get 0#8 s.banks[l] ofs

/-- `k` bytes of a bank from an offset. -/
def bankBytes (s : State) (l : Lane) (ofs : Nat) : Nat → List Byte
  | 0 => []
  | k + 1 => bankByte s l ofs :: bankBytes s l (ofs + 1) k

/-- A little-endian word of a bank. -/
def bankWord (s : State) (l : Lane) (ofs : Nat) : Word := w32 (ofLe (bankBytes s l ofs 4))

/-- A 64-bit little-endian word of a bank. -/
def bankDword (s : State) (l : Lane) (ofs : Nat) : Dword := BitVec.ofNat 64 (ofLe (bankBytes s l ofs 8))

/-- Bytes into a byte map from an offset. -/
def putBytes (m : SMap Byte) (ofs : Nat) : List Byte → SMap Byte
  | [] => m
  | b :: bs => putBytes (SMap.set 0#8 m ofs b) (ofs + 1) bs

/-- `k` bytes of a byte map. -/
def getBytes (m : SMap Byte) (ofs : Nat) : Nat → List Byte
  | 0 => []
  | k + 1 => SMap.get 0#8 m ofs :: getBytes m (ofs + 1) k

/-- Whether a 64-bit word of a bank, by the offset of a byte in it, passes or corrects its ECC check (R78). -/
def intact (s : State) (l : Lane) (ofs : Nat) : Bool := !s.ecc[l].contains (ofs / 8)

/-- The words listed that do not lie between two bank offsets. -/
def wordsOutside (lo hi : Nat) (ws : List Nat) : List Nat := ws.filter (fun w => decide (w < lo / 8 ∨ (hi + 7) / 8 ≤ w))

/-- The words between two bank offsets judged: a corrected single-bit error is written back in its own bank (R78). -/
def softDone (lo hi : Nat) (s : State) : State := { s with eccSoft := vmap (wordsOutside lo hi) s.eccSoft }

/-- A page written, into the dirty-page log of a Heel whose region holds it (R72). Pages count from the start of the
region. -/
def noteDirty (p : PartId) (page : Nat) (s : State) : State :=
  match triadOf s p with
  | some t => if s.triads[t].heel.st = .none then s else modHeel t (fun h => { h with dirty := insNat page h.dirty }) s
  | none => s

/-- A page written in the cycle, which the equaliser sends (R416). -/
def noteSent (p : PartId) (page : Nat) (s : State) : State :=
  { s with rck := { s.rck with written := addNew (p, page) s.rck.written } }

/-- A page of a region written: into both. -/
def notePage (p : PartId) (page : Nat) (s : State) : State := noteDirty p page (noteSent p page s)

/-- The page of the byte at a bank offset, noted if a vital region holds it. -/
def noteOfs (ofs : Nat) (s : State) : State :=
  match partAt s ofs with
  | some p => match regionOf s p with
    | some (b, _) => notePage p ((ofs - b) / 4096) s
    | none => s
  | none => s

/-- Bytes stored in one bank: contents and valid ECC. -/
def bankPut (l : Lane) (ofs : Nat) (bs : List Byte) (s : State) : State :=
  { s with banks := vupd s.banks l (fun m => putBytes m ofs bs),
           ecc := vupd s.ecc l (wordsOutside ofs (ofs + bs.length)),
           eccSoft := vupd s.eccSoft l (wordsOutside ofs (ofs + bs.length)) }

/-- A store of bytes to one bank, with the page noted. -/
def bankStore (l : Lane) (ofs : Nat) (bs : List Byte) (s : State) : State := noteOfs ofs (bankPut l ofs bs s)

/-- A store of an area of bytes to one bank, with every page that it touches noted (R72, R360). -/
def bankFill (l : Lane) (ofs : Nat) (bs : List Byte) (s : State) : State :=
  forEach (List.range ((ofs % 4096 + bs.length + 4095) / 4096)) (fun i => noteOfs (ofs + 4096 * i)) (bankPut l ofs bs s)

/-- The same bytes into all three banks (R14). -/
def bankPutAll (ofs : Nat) (bs : List Byte) (s : State) : State :=
  forEach (fins 3) (fun l => bankPut l ofs bs) s

/-! ### What the Gazetteer and the force table say of a signal -/

/-- The safe value of a signal (R171): FALSE or 0 unless the Gazetteer names another constant. -/
def safeOf (s : State) (g : Sig) : Word := match gazOf s g with
  | some e => e.safe
  | none => 0#32

/-- The substitution mode of a signal (R171). -/
def substOf (s : State) (g : Sig) : Subst := match gazOf s g with
  | some e => e.subst
  | none => .safe

/-- The active force on a signal (R180). -/
def forceOf (s : State) (g : Sig) : Option Word := (s.pim.forces.find? (fun f => f.sig = g)).map (·.value)

/-! ### Time, the cycle and free values -/

/-- TB at an instant that the spec gives, if it is not past (log entry 14). With PLL-T stopped TB stands (R436). -/
def tbAt (s : State) (n : Nat) : Nat := if s.clk.stopped then s.tb else max s.tb n

/-- TB goes to the instant that the spec gives a time-driven event. -/
def advanceTo (n : Nat) (s : State) : State := { s with tb := tbAt s n }

/-- T_cyc in TB ticks (R139). -/
def tcycTicks (s : State) : Nat := s.scn.tcycAct.toNat * 10000

/-- No self-test runs, and no block is isolated (R497). -/
def Bst.quiet (b : Bst) : Bst := { b with testFrom := none, part := 0, block := 0xFF#8, pct := 0#8, held := [] }

/-- A value that the spec leaves open: the next draw of the free values (log entry 6). -/
def draw (s : State) : Word × State := (Config.freeWord s.freeDraws, { s with freeDraws := s.freeDraws + 1 })

/-! ### Volatile Logbook counters -/

/-- A count into the Logbook counter at a byte offset (R499, R501). -/
def logAdd (ofs n : Nat) (s : State) : State :=
  { s with log := { s.log with vol := SMap.set 0 s.log.vol ofs (SMap.get 0 s.log.vol ofs + n) } }

/-- One more in module counter `i` (R502). -/
def logModule (i : Nat) : State → State := logAdd (0x40 + 8 * i) 1

/-- One more in counter `i` of a core (R503), counted from 0. -/
def logCore (c : CoreId) (i : Nat) : State → State := logAdd (0x100 + 64 * c.val + 8 * i) 1

/-! ### Modes -/

/-- Whether the module carries no station because it is a twin that is not ACTIVE (R413, R414). -/
def standing (s : State) : Bool := s.rck.twinEnAct && s.rck.role ≠ .active

/-- Whether partitions are solved in the running cycle (R151, R153, R414, R422, R424). -/
def solves (s : State) : Bool :=
  (s.scn.mode = .run || (s.scn.mode = .hold && s.scn.stepped)) && !standing s && decide (s.rck.solveFrom ≤ s.scn.cycle)

/-- Whether boundaries occur in a mode (R141). -/
def Mode.bounded : Mode → Bool
  | .start => false
  | .shutdown => false
  | _ => true

/-- The register code of a mode (R147). -/
def Mode.code : Mode → Nat
  | .start => 1
  | .stop => 2
  | .run => 3
  | .hold => 4
  | .safe => 5
  | .shutdown => 6

end Sys2Proof.Machine
end

