-- ==== Sys2Proof/Machine/Drive.lean ====
section
/-!
DEFINITION. The dynamic output code (R54 to R57): which channel carries which signal, whether the conditions of R55
hold, and the stop of a code when they fail, with the abort of a test that R267 asks for.
-/
namespace Sys2Proof.Machine

open Sys2Proof

/-- Every channel, rising. -/
def chans : List Chan := fins 28

/-- OUT_n as a channel. -/
def outChan (n : Fin 24) : Chan := ⟨n.val, by omega⟩

/-- SBC_k as a channel. -/
def sbcChan (k : Fin 4) : Chan := ⟨24 + k.val, by omega⟩

/-- The brake channel of a channel number of 24 and above. -/
def chanSbc (ch : Chan) : Option (Fin 4) := if h : 24 ≤ ch.val then some ⟨ch.val - 24, by omega⟩ else none

/-- The lowest member of a channel's gang (R260), by the START configuration. -/
def chanLead (s : State) (ch : Chan) : Chan :=
  if s.dio.outs[ch].gang = 1#2 then ⟨ch.val / 2 * 2, by omega⟩
  else if s.dio.outs[ch].gang = 2#2 then ⟨ch.val / 4 * 4, by omega⟩ else ch

/-- Every member of a channel's gang. -/
def gangOf (s : State) (ch : Chan) : List Chan := chans.filter (fun c => chanLead s c = chanLead s ch)

/-- The signal of an I/O descriptor for a channel: that of the lowest member of its gang (R260). -/
def ioSig (io : IoDesc) (ch : Chan) : Option Sig :=
  if h : ch.val < 24 then io.outs[(⟨ch.val, h⟩ : Fin 24)].signal
  else (chanSbc ch).bind (fun k => io.sbcs[k].signal)

/-- The word signal in which a channel's status word stands (R263). -/
def ioStatus (io : IoDesc) (ch : Chan) : Option Nat :=
  if h : ch.val < 24 then io.outs[(⟨ch.val, h⟩ : Fin 24)].status
  else (chanSbc ch).bind (fun k => io.sbcs[k].status)

/-- The voted reading of a terminal, or of the high-side pole of a brake channel: the majority of its chains (R255). -/
def OutCh.termHigh (o : OutCh) : Bool := maj3 o.high

/-- The voted reading of the low-side pole of a brake channel. -/
def OutCh.termLow (o : OutCh) : Bool := maj3 o.low

/-- The output signal of a channel in the image that runs. -/
def chanSig (s : State) (ch : Chan) : Option Sig := s.olc.active.bind (fun im => ioSig im.io (chanLead s ch))

/-- The owning partition of a channel (R21). -/
def chanOwner (s : State) (ch : Chan) : Option PartId := (chanSig s ch).bind (fun g => ownerOf s (.signal g))

/-- The owning triad of a channel. -/
def chanTriad (s : State) (ch : Chan) : Option TriadId := (chanOwner s ch).bind (triadOf s)

/-- A force that holds the channel OFF (R55 item 5, R182). -/
def forcedOff (s : State) (ch : Chan) : Bool := match (chanSig s ch).bind (forceOf s) with
  | some v => v = 0#32
  | none => false

/-- R55 item 1: RUN, or an exercise of the channel in STOP. -/
def codeMode (s : State) (ch : Chan) : Bool :=
  s.scn.mode = .run || (s.scn.mode = .stop && s.dio.outs[ch].exer)

/-- R55 item 2: the owning triad runs and the owning partition is not stopped. -/
def codeOwner (s : State) (ch : Chan) : Bool :=
  match chanOwner s ch with
  | some p => match triadOf s p with
    | some t => runningPart s t = some p
    | none => false
  | none => false

/-- R55 item 4: the credit has not expired. -/
def codeCredit (s : State) (ch : Chan) : Bool := match s.dio.outs[ch].credit with
  | some c => s.scn.cycle ≤ c
  | none => false

/-- R423: in its first cycle after a hand-over or takeover a twin energises only channels whose terminal read ON at B. -/
def twinHeld (s : State) (ch : Chan) : Bool := s.rck.restrict = some s.scn.cycle && !s.dio.outs[chanLead s ch].termB

/-- R55 item 5: no latch and no force holds the channel OFF. -/
def codeLatch (s : State) (ch : Chan) : Bool :=
  !s.dio.outs[ch].fbLatch && !bit s.tri.dynFault ch.val && !forcedOff s ch && !twinHeld s ch

/-- Whether a channel is ON by its last Emit: its code runs, or an off-pulse interrupts it (R265, R422). -/
def OutCh.emitsOn (o : OutCh) : Bool := o.code || (o.pulse && o.want)

/-- R55 item 6 and R255: the channel is suppressed. -/
def suppressed (s : State) (ch : Chan) : Bool :=
  s.dio.outs[ch].pulse || s.dio.outs[ch].brkTest || s.dio.outs[ch].tfail || s.dio.outs[ch].ovld

/-- Items 1, 2, 4 and 5 of R55: everything but the value and the tests. -/
def codeEnv (s : State) (ch : Chan) : Bool := codeMode s ch && codeOwner s ch && codeCredit s ch && codeLatch s ch

/-- Items 1 to 5 of R55. -/
def codeBase (s : State) (ch : Chan) : Bool := codeEnv s ch && s.dio.outs[ch].want

/-- All conditions of R55. The TRV-16B has no channel (R66). -/
def codeOk (s : State) (ch : Chan) : Bool :=
  s.variant.dio && s.dio.outs[ch].vital && codeBase s ch && !suppressed s ch

/-- The code of a channel stops (R56). -/
def stopCode (ch : Chan) (s : State) : State :=
  modOut ch (fun o => if o.code then
      { o with code := false, chips := Vector.replicate 3 0#15, stopAt := s.tb, coilFrom := none, restoring := false }
    else { o with restoring := false }) s

/-- The latch of a non-vital channel, and since when its pumps are not fed (R255, R262). -/
def OutCh.setLatch (v : Bool) (now : Nat) (o : OutCh) : OutCh :=
  { o with latch := v, stopAt := if o.latch && !v then now else o.stopAt }

/-- A test of a brake channel counts in the Logbook: counter 1 passed, 2 failed, 3 aborted (R501). That its off-pulse tests
count there beside its brake tests is a reading of the model (log entry 57). -/
def logSbcTest (ch : Chan) (i : Nat) (s : State) : State := match chanSbc ch with
  | some k => logAdd (0xA40 + 32 * k.val + 8 * i) 1 s
  | none => s

/-- An off-pulse ends ABORTED on a de-energise request (R267). -/
def abortPulse (ch : Chan) (s : State) : State :=
  let s := forEach (gangOf s ch) (fun c => modOut c (fun o => { o with pulse := false, restoring := false })) s
  logSbcTest ch 3 { s with dio := { s.dio with test := none, last := 3#2, aborted := satInc s.dio.aborted } }

/-- A brake test ends ABORTED (R267, R291, R292): suppression ends, the drive is told END, the test stays due. -/
def abortBrake (k : Fin 4) (s : State) : State :=
  let s := modOut (sbcChan k) (fun o => { o with brkTest := false, waitOn := none }) s
  let s := modBrk k (fun b => { b with phase := 2#2, last := 3#2, due := true, ending := true }) s
  logAdd (0xA40 + 32 * k.val + 24) 1 { s with dio := { s.dio with last := 3#2, aborted := satInc s.dio.aborted } }

/-- Whether the off-pulse that runs is of the channel's gang. -/
def underPulse (s : State) (ch : Chan) : Bool := match s.dio.test with
  | some (c, _) => chanLead s c = chanLead s ch
  | none => false

/-- One channel after a change of anything R55 reads: its code stops if a condition fails, and a test it is under is
aborted if a condition that held fails (R56, R267). -/
def refreshCode (ch : Chan) (s : State) : State :=
  let env := codeEnv s ch
  let s := if underPulse s ch && !codeBase s ch then abortPulse ch s else s
  let s := match chanSbc ch with
    | some k => if s.dio.outs[ch].brkTest && (s.scn.mode ≠ .run || s.dio.outs[ch].envOk && !env) then abortBrake k s else s
    | none => s
  let s := modOut ch (fun o => { o with envOk := env }) s
  if codeOk s ch then s else stopCode ch s

/-- Every channel after such a change. -/
def refreshCodes (s : State) : State := forEach chans refreshCode s

end Sys2Proof.Machine
end

