-- ==== Sys2Proof/Machine/Book.lean ====
section
/-!
DEFINITION. What stands in FRAM: the test record (R475 to R479) and the two Logbook copies (R498 to R506), and the
volatile counters in front of them.
-/
namespace Sys2Proof.Machine

open Sys2Proof

/-! ### Power-on hours -/

/-- TB ticks of an hour and a minute. -/
def hourT : Nat := 360000000000
def minT : Nat := 6000000000

/-- The module's own TB ticks since START: TB without what a partner's TB has set it ahead by (R415). -/
def upTicks (s : State) : Nat := ((s.tb : Int) - s.log.skew).toNat

/-- TB when the module has run for `n` ticks. -/
def upTb (s : State) (n : Nat) : Nat := ((n : Int) + s.log.skew).toNat

/-- Power-on hours: those stored at START plus the hours since (R509). -/
def pohNow (s : State) : Word := w32 (s.log.poh.toNat + upTicks s / hourT)

/-! ### The test record -/

/-- Bytes 0 to 59 of a test record (R475). -/
def TestRec.body (r : TestRec) : List Byte :=
  leBytes 4 r.format.toNat ++ [r.result, r.kind] ++ leBytes 2 r.cause.toNat ++ leBytes 4 r.poh.toNat ++
  leBytes 4 r.fw.toNat ++ leBytes 4 r.serial.toNat ++ leBytes 2 r.rsiMin.toNat ++ leBytes 2 r.rsiMax.toNat ++
  leBytes 2 r.temp.toNat ++ leBytes 2 0 ++ leBytes 4 r.failBlocks.toNat ++ leBytes 2 r.failCores.toNat ++
  List.replicate 26 0#8

/-- The 64 bytes of a test record (R475, R501). -/
def TestRec.bytes (r : TestRec) : List Byte := r.body ++ leBytes 4 r.check.toNat

/-- A copy is intact if FORMAT and CHECK are correct (R476). -/
def TestRec.intact (r : TestRec) : Bool := r.format = 1#32 && r.check = crc32c r.body

/-- A record with its CHECK. -/
def TestRec.seal (r : TestRec) : TestRec := { r with check := crc32c r.body }

/-- The intact copy with the higher POH, and copy 0 if both are equal (R476). -/
def recUsed (s : State) : Option TestRec :=
  let a := s.nv.recs[0]
  let b := s.nv.recs[1]
  if a.intact then (if b.intact && decide (a.poh.toNat < b.poh.toNat) then some b else some a)
  else if b.intact then some b else none

/-- The record that a rewrite starts from: the one in use, or a blank one. -/
def recBase (s : State) : TestRec := s.bst.used.getD { TestRec.init with format := 1#32 }

/-- Both copies written (R476). -/
def writeRec (r : TestRec) (s : State) : State :=
  let r := r.seal
  { s with nv := { s.nv with recs := Vector.replicate 2 r }, bst := { s.bst with used := some r } }

/-- The record is invalidated: RESULT INVALIDATED, every other field kept except POH and CAUSE (R476, R479). -/
def invalidateRec (code : Nat) (s : State) : State :=
  writeRec { recBase s with result := 4#8, cause := BitVec.ofNat 16 code, poh := pohNow s } s

/-! ### The Logbook copies -/

/-- Sections 1 to 8: first offset and length in bytes (R501). A section runs to the next one's offset, section 8 to
the end of its 64 entries (log entry 20). -/
def logSections : List (Nat × Nat) :=
  [(0x40, 0xC0), (0x100, 0x400), (0x500, 0x300), (0x800, 0x300), (0xB00, 0x100), (0xC00, 0x800), (0x1400, 0x4C00),
   (0x6000, 0x808)]

/-- Fields of a Logbook copy. -/
def logByte (m : SMap Byte) (ofs : Nat) : Byte := SMap.get 0#8 m ofs
def logWord (m : SMap Byte) (ofs : Nat) : Nat := ofLe (getBytes m ofs 4)
def logDword (m : SMap Byte) (ofs : Nat) : Nat := ofLe (getBytes m ofs 8)

/-- The CRC-32C of a section (R498). -/
def sectionCrc (m : SMap Byte) (p : Nat × Nat) : Word := crc32c (getBytes m p.1 p.2)

/-- The SEC_CRC of every section into the header (R498). -/
def putSecCrcs (m : SMap Byte) : SMap Byte :=
  putBytes m 16 (logSections.flatMap (fun p => leBytes 4 (sectionCrc m p).toNat))

/-- The header of a copy completed: FORMAT, UPD_SEQ, POH, SEC_CRC and CHECK (R498). -/
def sealLog (seq poh : Nat) (m : SMap Byte) : SMap Byte :=
  let m := putBytes m 0 (leBytes 4 1 ++ leBytes 4 seq ++ leBytes 4 poh ++ leBytes 4 0)
  let m := putSecCrcs m
  let m := putBytes m 48 (List.replicate 12 0#8)
  putBytes m 60 (leBytes 4 (crc32c (getBytes m 0 60)).toNat)

/-- Whether a copy's header is intact (R500 step 1). -/
def logIntact (m : SMap Byte) : Bool :=
  decide (logWord m 0 = 1) && decide (logWord m 60 = (crc32c (getBytes m 0 60)).toNat)

/-- Whether section `i` (from 0) of a copy meets its SEC_CRC (R500 step 3). -/
def sectionOk (m : SMap Byte) (i : Nat) : Bool :=
  decide (logWord m (16 + 4 * i) = (sectionCrc m (logSections.getD i (0, 0))).toNat)

/-- A counter of a copy raised, saturating at its width of `k` bytes. -/
def bumpCounter (k ofs n : Nat) (m : SMap Byte) : SMap Byte :=
  putBytes m ofs (leBytes k (min (ofLe (getBytes m ofs k) + n) (256 ^ k - 1)))

/-- The width in bytes of the counter at an offset: station counters are 32-bit (R501). -/
def counterBytes (ofs : Nat) : Nat := if 0x1400 ≤ ofs ∧ ofs < 0x6000 then 4 else 8

/-- The volatile counts added to a copy (R499). -/
def addCounts (vol : SMap Nat) (m : SMap Byte) : SMap Byte :=
  vol.foldl (fun m p => bumpCounter (counterBytes p.1) p.1 p.2 m) m

/-- The failure-history entry appended to a copy (R506). -/
def addHist (h : Hist) (m : SMap Byte) : SMap Byte :=
  let next := logWord m 0x6000 % 64
  let m := putBytes m (0x6008 + 32 * next)
    (leBytes 2 h.code.toNat ++ [h.cls, h.triad] ++ leBytes 4 h.poh.toNat ++ leBytes 8 (h.cyc % 2 ^ 48) ++
     leBytes 8 h.tb ++ leBytes 4 h.argA.toNat ++ leBytes 4 h.argB.toNat)
  bumpCounter 4 0x6004 1 (putBytes m 0x6000 (leBytes 4 ((next + 1) % 64)))

/-- A ranked row of section 6: station, bus, slot errors, missed cycles. -/
structure WorstRow where
  station : Nat
  bus : Nat
  errors : Nat
  missed : Nat
  deriving DecidableEq, Repr

/-- Insertion by slot errors, highest first, and by lower station ID (R505). -/
def insWorst (r : WorstRow) : List WorstRow → List WorstRow
  | [] => [r]
  | x :: l => if x.errors < r.errors ∨ (x.errors = r.errors ∧ r.station < x.station) then r :: x :: l
    else x :: insWorst r l

/-- The offset in section 7 of a station's counters (R501). -/
def stationOfs (bus station : Nat) : Nat := 0x1400 + bus * 8184 + 8 * (station - 1)

/-- The POH at which a station of section 6 last gained an error, from the copy's previous section 6. -/
def worstPoh (m : SMap Byte) (bus station : Nat) : Nat :=
  match (List.range 64).find? (fun i =>
      let o := 0xC00 + bus * 0x400 + 16 * i
      decide (ofLe (getBytes m o 2) = station ∧ logWord m (o + 4) ≠ 0)) with
  | some i => logWord m (0xC00 + bus * 0x400 + 16 * i + 12)
  | none => 0

/-- Section 6 of one bus rewritten from section 7 (R505): the first 64 stations with an error. `gained` says that the
station gained an error in this update. -/
def rankWorst (bus poh : Nat) (gained : Nat → Bool) (m : SMap Byte) : SMap Byte :=
  let rows := ((List.range 1023).map (fun i => i + 1)).foldl (fun l st =>
    let e := logWord m (stationOfs bus st)
    if e = 0 then l else insWorst ⟨st, bus, e, logWord m (stationOfs bus st + 4)⟩ l) []
  let body := (rows.take 64).flatMap (fun r =>
    leBytes 2 r.station ++ leBytes 2 r.bus ++ leBytes 4 r.errors ++ leBytes 4 r.missed ++
    leBytes 4 (if gained r.station then poh else worstPoh m bus r.station))
  putBytes m (0xC00 + bus * 0x400) (body ++ List.replicate (0x400 - body.length) 0#8)

/-- A copy after an update with a snapshot of the volatile counters (R499, R505). -/
def updateCopy (vol : SMap Nat) (seq poh : Nat) (m : SMap Byte) : SMap Byte :=
  let m := addCounts vol m
  let m := rankWorst 0 poh (fun st => decide (SMap.get 0 vol (stationOfs 0 st) ≠ 0)) m
  let m := rankWorst 1 poh (fun st => decide (SMap.get 0 vol (stationOfs 1 st) ≠ 0)) m
  sealLog seq poh m

end Sys2Proof.Machine
end

