-- ==== Sys2Proof/Machine/Round.lean ====
section
/-!
DEFINITION. The records and the retirement of a core (R29 to R37, R126, R127), and the frame of a Survey round: its
requests, the form of a result, its start and its end (R226, R227, R234). What stops a partition closes its queue, and the
close of the last queue starts the round.
-/
namespace Sys2Proof.Machine

open Sys2Proof

/-! ### Records (R29 to R33) -/

/-- The 12 bytes of a record (R30). -/
def recBytes (kind sub : Nat) (addr value : Word) : List Byte :=
  [BitVec.ofNat 8 kind, BitVec.ofNat 8 sub, 0#8, 0#8] ++ beBytes 4 addr.toNat ++ beBytes 4 value.toNat

/-- A record fed to the write signature (R29). A non-vital core feeds none that is voted (R33). -/
def Core.feed (vital : Bool) (kind sub : Nat) (addr value : Word) (k : Core) : Core :=
  if vital then { k with sig := crc64From k.sig (recBytes kind sub addr value) } else k

/-- A write to a general register: G0 discards it; a write to another is recorded (R32, R101, R126). -/
def Core.setReg (vital : Bool) (r : Reg) (v : Word) (k : Core) : Core :=
  if r = 0 then k else { Core.feed vital 1 r.val 0#32 v k with g := vset k.g r v }

/-- A general register: G0 reads as zero (R101). -/
def Core.reg (k : Core) (r : Reg) : Word := if r = 0 then 0#32 else k.g[r]

/-- A write to IB, recorded (R31). -/
def Core.setIb (vital : Bool) (v : Word) (k : Core) : Core := Core.feed vital 2 0 0#32 v { k with ib := v }

/-! ### Retirement and commit points (R36, R126) -/

/-- The core presents a commit record and waits for its release (R36). -/
def Core.present (kind sub : Nat) (addr value : Word) (k : Core) : Core :=
  let k := Core.feed true 5 kind k.seq 0#32 k
  { k with out := some (.commit { kind := kind, seq := k.seq, sig := k.sig, sub := sub, addr := addr, value := value }),
           run := .waitCommit }

/-- Retirement of an instruction that is no commit point: the counter advances, and a forced commit follows the
4,096th (R126, R127). A non-vital core has no commit points. -/
def Core.retire (vital : Bool) (k : Core) : Core :=
  if vital then
    let k := { k with count := k.count + 1 }
    if k.count = 4096 then Core.present 3 0 0#32 0#32 k else k
  else k

/-- Retirement with the next instruction as the next PC, modulo 2^22 (R539). -/
def Core.next (vital : Bool) (k : Core) : Core := Core.retire vital { k with pc := k.pc + 1#22 }

/-- The core goes on after its commit (R126): the sequence number advances, the counter restarts; after the commit of
kind 0x4 it does nothing until the next entry (R117). -/
def Core.resume (last : Bool) (k : Core) : Core :=
  { k with seq := k.seq + 1#32, count := 0, out := none, run := if last then .idle else .running }

/-! ### Requests and results of the Survey unit (R224, R230, R234) -/

/-- KIND and ELEMENT of a list entry (R217). -/
def enKind (e : Word) : Nat := fld e 30 2
def enEl (e : Word) : Nat := fld e 0 16

/-- A result before it is put into words: OVL 7 is none. -/
structure SvyOut where
  verdict : Nat
  reason : Nat
  ovl : Nat
  move : Bool
  entry : Option Word
  other : Option Nat
  tapp : Nat
  lset : Option (List Word)
  deriving DecidableEq, Repr

/-- A result without report. -/
def svyOut (verdict reason : Nat) : SvyOut :=
  { verdict := verdict, reason := reason, ovl := 7, move := false, entry := none, other := none, tapp := 0,
    lset := none }

/-- A request: triad, index of its first word, its two words. -/
structure SvyReq where
  triad : TriadId
  index : Nat
  w0 : Word
  w1 : Word
  deriving DecidableEq, Repr

/-- The route of a request (R224). -/
def SvyReq.route (q : SvyReq) : Nat := fld q.w0 0 15

/-- The eight words of a result, with the place of its locking set (R234). -/
def SvyOut.words (o : SvyOut) (q : SvyReq) (ofs : Nat) : Vector Word 8 :=
  #v[w32 (o.verdict * 2 ^ 28 + o.reason * 2 ^ 20 + o.ovl * 2 ^ 17 + (if o.move then 65536 else 0) + q.route),
     (match o.entry with
      | some e => w32 (2 ^ 31 + enKind e * 65536 + enEl e)
      | none => 0#32),
     (match o.lset with
      | some _ => w32 ofs
      | none => 0#32),
     (match o.lset with
      | some l => w32 (l.length % 65536)
      | none => 0#32),
     (match o.other with
      | some r => w32 (2 ^ 31 + r)
      | none => 0#32),
     w32 o.tapp, q.w0, q.w1]

/-- How many words of a triad's queue count: a closed queue keeps its complete requests (R226). -/
def SvyQ.held (q : SvyQ) : Nat := if q.closeBy = 0 then q.words.length else q.closeLen

/-- Every request of a triad's queue. -/
def queueReqs (s : State) (t : TriadId) : List SvyReq :=
  let ws := s.svy.queues[t].words.take s.svy.queues[t].held
  (List.range (ws.length / 2)).map (fun i => ⟨t, 2 * i, ws.getD (2 * i) 0#32, ws.getD (2 * i + 1) 0#32⟩)

/-- Every request of the round, by triad and index: those of partitions stopped before it started are discarded
(R227). -/
def roundReqs (s : State) : List SvyReq :=
  (fins 5).flatMap (fun t => if s.svy.queues[t].discarded then [] else queueReqs s t)

/-! ### The round (R227) -/

def modSvy (f : Svy → Svy) (s : State) : State := { s with svy := f s.svy }

/-- The SVW that waits on a result returns in every lane of the triad (R124, R237). -/
def svyWake (t : TriadId) (index : Nat) (words : Vector Word 8) (s : State) : State :=
  forEach (fins 3) (fun l s => match s.triads[t].cores[l] with
    | none => s
    | some c => match s.cores[c].run with
      | .waitSvw gd i w =>
        if i = index then
          modCore c (fun k => Core.next true (Core.setReg true gd (words.toList.getD w 0#32) { k with run := .running })) s
        else s
      | _ => s) s

/-- µs from B, in `n` bits, saturating. -/
def usFromB (n : Nat) (s : State) : BitVec n := satOf n ((s.tb - s.scn.bTb) / 100)

/-- The round ends with its last result (R227, SVY_ROUND, SVY_ROUND_MAX). -/
def svyFinish (s : State) : State :=
  let granted := s.svy.done.countP (fun r => fld r.words[0] 28 4 = 0)
  modSvy (fun v =>
    { v with round := 3, lastReqs := BitVec.ofNat 15 (roundReqs s).length, lastGranted := BitVec.ofNat 15 granted,
             lastStart := v.startUs, lastEnd := usFromB 20 s,
             roundMax := if v.roundMax.toNat < (s.tb - v.roundStart) / 100 then satOf 16 ((s.tb - v.roundStart) / 100)
               else v.roundMax }) s

/-- Whether a result is released. -/
def svyReleased (s : State) (t : TriadId) (index : Nat) : Bool :=
  s.svy.agreedAt.any (fun x => x.1 = t && x.2.1 = index)

/-- The round ends when every request's result is released. -/
def svyTryFinish (s : State) : State :=
  if s.svy.round = 2 && (roundReqs s).all (fun q => svyReleased s q.triad q.index) then svyFinish s else s

/-- The route of a queued request. -/
def svyRoute (s : State) (t : TriadId) (index : Nat) : Nat := fld (s.svy.queues[t].words.getD index 0#32) 0 15

/-- Whether a triad's partition takes results: it has entered Solve in this cycle and has not stopped (R227). -/
def svyTakes (s : State) (t : TriadId) : Option PartId := (runningPart s t).bind (fun p =>
  if s.parts[p].st = .solving ∨ s.parts[p].st = .ended then some p else none)

/-- A result present in all three banks, and SVW returns (R237). A partition that has stopped takes none (R227). -/
def svyReturn (t : TriadId) (index : Nat) (words : Vector Word 8) (s : State) : State :=
  let s := modSvy (fun v => { v with agreedAt := v.agreedAt ++ [(t, index, s.tb)] }) s
  match svyTakes s t with
  | none => s
  | some _ => svyWake t index words (modSvy (fun v => { v with done := v.done ++ [⟨t, index, words⟩] }) s)

/-- Every result of the round not yet released, as UNIT_FAULT (R239). -/
def svyFaultAll (s : State) : State :=
  svyTryFinish (forEach (roundReqs s) (fun q s =>
    if svyReleased s q.triad q.index then s
    else svyReturn q.triad q.index (SvyOut.words (svyOut 1 0x13) q 0) s) s)

/-- The round starts when every queue is closed (R227). -/
def svyStart (s : State) : State :=
  if s.svy.round = 1 && (fins 5).all (fun t => s.svy.queues[t].closeBy ≠ 0) then
    let s := modSvy (fun v => { v with round := 2, roundStart := s.tb, startUs := usFromB 20 s, pres := [], done := [],
                                       agreedAt := [] }) s
    if s.svy.failed then svyFaultAll s else svyTryFinish s
  else s

/-- A queue as an event of R226 closes it: a single trailing word is discarded. -/
def SvyQ.shut (by_ : Nat) (q : SvyQ) : SvyQ :=
  if q.closeBy = 0 then { q with closeBy := by_, closeLen := q.words.length / 2 * 2 } else q

/-- A queue is closed by an event of R226. -/
def svyClose (t : TriadId) (by_ : Nat) (s : State) : State :=
  if s.svy.queues[t].closeBy ≠ 0 then s
  else svyStart (modSvy (fun v => { v with queues := vupd v.queues t (SvyQ.shut by_) }) s)

/-- The partitions of some triads stop: their queues are closed, and before the round has started their requests are
discarded unjudged (R226, R227). -/
def svyDiscard (ts : List TriadId) (s : State) : State :=
  if s.svy.round < 2 then
    svyStart (forEach ts (fun t => modSvy (fun v =>
      { v with queues := vupd v.queues t (fun q => { q.shut 4 with discarded := true }) })) s)
  else s

end Sys2Proof.Machine
end

