-- ==== Sys2Proof/Machine/Errors.lean ====
section
/-!
DEFINITION. Event codes, and raising and queueing events (R458 to R468). The codes below are those of R58, R96, R130,
R161, R183, R209, R244, R270, R302, R345, R372, R399, R426, R446, R456, R470, R496 and R508; for Ubuno they give the low
byte.
-/
namespace Sys2Proof.Machine

open Sys2Proof

def Ev.ubKeeper : Nat := 0x0001
def Ev.absentUnit : Nat := 0x0001
def Ev.ubColdCollision : Nat := 0x0002
def Ev.ubForeignKeeper : Nat := 0x0003
def Ev.ublSlotBoundary : Nat := 0x0004
def Ev.ublStationJoined : Nat := 0x0005
def Ev.ublJoinRefused : Nat := 0x0006
def Ev.ublStationLost : Nat := 0x0007
def Ev.ublChannelJam : Nat := 0x0008
def Ev.ublChannelOk : Nat := 0x0009
def Ev.ubPrecisionLost : Nat := 0x000A
def Ev.ubCfgRefused : Nat := 0x000B
def Ev.ubDynLimit : Nat := 0x000C
def Ev.ubChDiffer : Nat := 0x000D
def Ev.ubSilent : Nat := 0x000E
def Ev.clkXoFail : Nat := 0x0101
def Ev.clkXoOk : Nat := 0x0102
def Ev.clkEscape : Nat := 0x0103
def Ev.clkGateForced : Nat := 0x0104
def Ev.clkTbFail : Nat := 0x0105
def Ev.clkIoFail : Nat := 0x0106
def Ev.refinLost : Nat := 0x0107
def Ev.ringSlow : Nat := 0x0108
def Ev.oddMismatch : Nat := 0x0201
def Ev.oddLate : Nat := 0x0202
def Ev.noMajority : Nat := 0x0203
def Ev.voteUnresolved : Nat := 0x0204
def Ev.pairMismatch : Nat := 0x0205
def Ev.pairLate : Nat := 0x0206
def Ev.lagWarn : Nat := 0x0207
def Ev.voterFault : Nat := 0x0208
def Ev.dynCodeFault : Nat := 0x0209
def Ev.storeNotOwned : Nat := 0x0210
def Ev.noCopyMajority : Nat := 0x0211
def Ev.sysCopyNoMajority : Nat := 0x0212
def Ev.heelCopyRepair : Nat := 0x0213
def Ev.scrubRepair : Nat := 0x0214
def Ev.rotated : Nat := 0x0215
def Ev.reserveNone : Nat := 0x0216
def Ev.heelSlow : Nat := 0x0217
def Ev.pairExpired : Nat := 0x0218
def Ev.kennelFail : Nat := 0x0219
def Ev.kennelInvalid : Nat := 0x021A
def Ev.splitRefused : Nat := 0x021B
def Ev.handoverRefused : Nat := 0x021C
def Ev.nvqRefused : Nat := 0x021D
def Ev.nvqLimit : Nat := 0x021E
def Ev.nvqEcc : Nat := 0x021F
def Ev.illegal : Nat := 0x0220
def Ev.align : Nat := 0x0221
def Ev.addrFault : Nat := 0x0222
def Ev.codeWrite : Nat := 0x0223
def Ev.headerWrite : Nat := 0x0224
def Ev.sigRange : Nat := 0x0225
def Ev.divZero : Nat := 0x0226
def Ev.stackOverflow : Nat := 0x0227
def Ev.ibFault : Nat := 0x0228
def Ev.instanceType : Nat := 0x0229
def Ev.surveyAbsent : Nat := 0x022A
def Ev.surveyRequest : Nat := 0x022B
def Ev.assertFail : Nat := 0x022C
def Ev.priv : Nat := 0x022D
def Ev.nvStoreRefused : Nat := 0x022E
def Ev.nvTrap : Nat := 0x022F
def Ev.cycleOverrun : Nat := 0x0301
def Ev.partOverrun : Nat := 0x0302
def Ev.nvOverrun : Nat := 0x0303
def Ev.tcycRefused : Nat := 0x0304
def Ev.modeRefused : Nat := 0x0305
def Ev.modeChanged : Nat := 0x0306
def Ev.holdLeft : Nat := 0x0307
def Ev.forceApplied : Nat := 0x0401
def Ev.forceRemoved : Nat := 0x0402
def Ev.forceRefused : Nat := 0x0403
def Ev.hostAreaSubst : Nat := 0x0404
def Ev.olcStaged : Nat := 0x0501
def Ev.olcCheckFail : Nat := 0x0502
def Ev.olcActivated : Nat := 0x0503
def Ev.olcRolledBack : Nat := 0x0504
def Ev.olcAccepted : Nat := 0x0505
def Ev.olcAbandoned : Nat := 0x0506
def Ev.olcStageFault : Nat := 0x0507
def Ev.sfcReset : Nat := 0x0508
def Ev.svyLaneOdd : Nat := 0x0601
def Ev.svyFailed : Nat := 0x0602
def Ev.svyQuotaRefused : Nat := 0x0603
def Ev.svyTableBad : Nat := 0x0604
def Ev.svyClosedLate : Nat := 0x0605
def Ev.svyAreaFull : Nat := 0x0606
def Ev.inChainDisagree : Nat := 0x0701
def Ev.inOutOfBand : Nat := 0x0702
def Ev.inClockGated : Nat := 0x0703
def Ev.outTestFail : Nat := 0x0704
def Ev.outStuckOn : Nat := 0x0705
def Ev.outOverload : Nat := 0x0706
def Ev.sbcOpenLoad : Nat := 0x0707
def Ev.fieldLow : Nat := 0x0708
def Ev.ioCfgDeferred : Nat := 0x0709
def Ev.resetAccepted : Nat := 0x0801
def Ev.resetRefused : Nat := 0x0802
def Ev.proofComplete : Nat := 0x0803
def Ev.proofRestart : Nat := 0x0804
def Ev.fbMismatch : Nat := 0x0805
def Ev.brkTestPass : Nat := 0x0806
def Ev.brkTestFail : Nat := 0x0807
def Ev.brkTestOverdue : Nat := 0x0808
def Ev.exerStart : Nat := 0x0809
def Ev.exerEnd : Nat := 0x080A
def Ev.safCfgDeferred : Nat := 0x080B
def Ev.canBusOff : Nat := 0x0B01
def Ev.canErrPassive : Nat := 0x0B02
def Ev.canRxOverflow : Nat := 0x0B03
def Ev.canAreaFull : Nat := 0x0B04
def Ev.canIdCollision : Nat := 0x0B05
def Ev.canReinit : Nat := 0x0B06
def Ev.canPrecisionLost : Nat := 0x0B07
def Ev.canCfgRefused : Nat := 0x0B08
def Ev.hstTagFail : Nat := 0x0C01
def Ev.hstCqLost : Nat := 0x0C02
def Ev.hstLinkLost : Nat := 0x0C03
def Ev.hstDmaError : Nat := 0x0C04
def Ev.hstRingError : Nat := 0x0C05
def Ev.rckPartnerIn : Nat := 0x0D01
def Ev.rckPartnerAdmitted : Nat := 0x0D02
def Ev.rckPartnerRefused : Nat := 0x0D03
def Ev.rckPartnerLeft : Nat := 0x0D04
def Ev.rckPartnerStale : Nat := 0x0D05
def Ev.twinEqual : Nat := 0x0D06
def Ev.twinNotEqual : Nat := 0x0D07
def Ev.twinHandover : Nat := 0x0D08
def Ev.twinTakeover : Nat := 0x0D09
def Ev.twinDualActive : Nat := 0x0D0A
def Ev.twinLockLost : Nat := 0x0D0B
def Ev.rckEqCrc : Nat := 0x0D0C
def Ev.crcMismatch : Nat := 0x0E01
def Ev.crcPortMismatch : Nat := 0x0E02
def Ev.crcJobLate : Nat := 0x0E03
def Ev.crcPortBusy : Nat := 0x0E04
def Ev.crcModeRefused : Nat := 0x0E05
def Ev.cfgWhileRunning : Nat := 0x0F01
def Ev.handlerOverrun : Nat := 0x0F02
def Ev.nestedStop : Nat := 0x0F03
def Ev.errQueueFull : Nat := 0x0F04
def Ev.nvEventsLost : Nat := 0x0F05
def Ev.fatalInSafe : Nat := 0x0F06
def Ev.bstQuickStart : Nat := 0x1001
def Ev.bstFullStart : Nat := 0x1002
def Ev.bstPass : Nat := 0x1003
def Ev.bstFail : Nat := 0x1004
def Ev.bstInvalidConditions : Nat := 0x1005
def Ev.bstRecordBad : Nat := 0x1006
def Ev.bstCoreFail : Nat := 0x1007
def Ev.logSectionRepaired : Nat := 0x1101
def Ev.logSectionLost : Nat := 0x1102
def Ev.logBad : Nat := 0x1103
def Ev.logWriteFail : Nat := 0x1104
def Ev.keyStoreFail : Nat := 0x1201

/-- The code of a bus event: low byte, high byte 0x09 for UBA and 0x0A for UBB (R345). -/
def ubEv (b : Fin 2) (low : Nat) : Nat := 0x0900 + 0x100 * b.val + low

/-- The class of a code (R458, with the tables of the raising chapters). A code of R130 is VITAL in a vital partition. -/
def evClass (code : Nat) : Cls :=
  if code ∈ [0x0212, 0x0301, 0x0705, 0x0D0A, 0x0105, 0x0F04] then .fatal
  else if code ∈ [0x0201, 0x0202, 0x0203, 0x0204, 0x0205, 0x0206, 0x0208, 0x0209, 0x0210, 0x0211, 0x0218, 0x0302,
      0x0602, 0x0704, 0x0805, 0x0807, 0x0808, 0x0E01, 0x0F02] then .vital
  else if 0x0220 ≤ code ∧ code ≤ 0x022D then .vital else .nonvital

/-- The code of a class in registers and entries (R458). -/
def Cls.code : Cls → Nat
  | .fatal => 1
  | .vital => 2
  | .nonvital => 3

/-! ### Counting and queueing -/

/-- Whether a queued event goes after a new one: of the same tick and triad, with a higher code, neither FATAL (R464). -/
def evAfter (e x : QEv) : Bool :=
  x.tb = e.tb && x.who = e.who && e.who ≠ 0xFF#8 && e.cls ≠ .fatal && x.cls ≠ .fatal && decide (e.code < x.code)

/-- An event in its place, from the end of a queue: by tick, and at one tick and triad by code, lowest first, whatever other
triads have raised at that tick between (R464). -/
def insEvRev (e : QEv) : List QEv → List QEv
  | [] => [e]
  | x :: l =>
    if evAfter e x || (x.tb = e.tb && (l.takeWhile (fun y => y.tb = e.tb)).any (evAfter e)) then x :: insEvRev e l
    else e :: x :: l

/-- An event at the end of a queue in raising order (R464, R466). -/
def insEv (e : QEv) (q : List QEv) : List QEv := (insEvRev e q.reverse).reverse

/-- The event as it enters a queue. `who` is the triad or the partition that it concerns, or 0xFF (R385). -/
def mkEv (s : State) (code : Nat) (who : Byte) (a b : Word) : QEv :=
  { code := code, cls := evClass code, who := who, argA := a, argB := b, cyc := s.scn.cycle, tb := s.tb }

/-- Event counts in ERR_CNT and in the Logbook, at raising (R466, R502). -/
def countEv (code : Nat) (s : State) : State :=
  let s := match evClass code with
    | .fatal => logModule 5 { s with err := { s.err with cntF := satInc s.err.cntF } }
    | .vital => logModule 6 { s with err := { s.err with cntV := satInc s.err.cntV } }
    | .nonvital => { s with err := { s.err with cntN := satInc s.err.cntN } }
  if code = 0x0101 then logModule 7 s else if code = 0x0103 then logModule 8 s
  else if code = 0x0105 then logModule 9 s else if code = 0x0104 then logModule 10 s
  else if code = 0x0108 then logModule 21 s else if code = 0x0708 then logModule 22 s else s

/-- The NONVITAL queue holds 64 entries; an event that finds it full is discarded and counted (R466, R467). -/
def queueNv (e : QEv) (s : State) : State :=
  if s.err.nq.length < 64 then { s with err := { s.err with nq := insEv e s.err.nq } }
  else logModule 20 { s with err := { s.err with nvLost := satInc s.err.nvLost, lostPend := s.err.lostPend + 1,
                                                 lostFlag := true } }

/-- A block under test raises no event, and ERR under test takes none (R490). What a VITAL event does besides concerns a
running partition, of which there is none during a test. -/
def evMuted (s : State) (code : Nat) : Bool := s.bst.block = 0x0F#8 || s.bst.block.toNat = code / 256

/-- A NONVITAL event: counted and queued, nothing else (R458). -/
def nvEventFor (code : Nat) (who : Byte) (a b : Word) (s : State) : State :=
  if evMuted s code then s else queueNv (mkEv s code who a b) (countEv code s)

/-- A NONVITAL event that names no triad. -/
def nvEvent (code : Nat) (a b : Word) (s : State) : State := nvEventFor code 0xFF#8 a b s

/-- Whether the VITAL queue has room: it holds 32 entries (R466). -/
def vqRoom (s : State) : Bool := s.err.vq.length < 32

/-- A FATAL or VITAL event counted, and queued if there is room. -/
def queueV (code : Nat) (who : Byte) (a b : Word) (s : State) : State :=
  let e := mkEv s code who a b
  if evMuted s code then s else
  let s := countEv code s
  if vqRoom s then { s with err := { s.err with vq := insEv e s.err.vq } } else s

/-- An entry for the failure history, written by LOG_HISTORY_WRITE (R506). -/
def history (code : Nat) (who : Byte) (a b : Word) (s : State) : State :=
  let h : Hist :=
    { code := BitVec.ofNat 16 code, cls := BitVec.ofNat 8 (evClass code).code, triad := who, poh := pohNow s,
      cyc := s.scn.cycle, tb := s.tb, argA := a, argB := b }
  { s with log := { s.log with hist := s.log.hist ++ [h] } }

end Sys2Proof.Machine
end

