-- ==== Sys2Proof/Machine/Rings.lean ====
section
/-!
DEFINITION. The completion queues of the host rings (R378 to R386): writing entries, waiting completions, discarded
status and event entries, MSI-X (R383), and the completion of an outstanding command.
-/
namespace Sys2Proof.Machine

open Sys2Proof

/-- The entries of a queue of a ring (R378). -/
def ringSize (r : Ring) : Nat := 2 ^ r.size.toNat

/-- The CQ is full when the tail is one entry behind the head (R381). -/
def cqFull (r : Ring) : Bool := (r.cqTail + 1) % ringSize r = r.cqHead

/-- Fetching is held by the quota (R386). -/
def ringLimited (r : Ring) : Bool := r.en && decide (r.quotaAct.toNat ≤ r.outs.length)

/-- A word of the MSI-X table. The stored map holds the difference from reset, where the mask bit of each entry's
vector control is 1 (log entry 11). -/
def msixWord (s : State) (k : Nat) : Word :=
  SMap.get 0#32 s.hst.msix k ^^^ (if k % 4 = 3 then 1#32 else 0#32)

/-- Whether an MSI-X vector is masked. -/
def msixMasked (s : State) (v : Fin 16) : Bool := bit (msixWord s (4 * v.val + 3)) 0

/-- A vector of a register field. -/
def vecOf (v : BitVec 4) : Fin 16 := ⟨v.toNat, v.isLt⟩

/-- MSI-X vector `v` is signalled, or set pending while it or the function is masked (R383). With MSI-X not enabled
nothing is signalled. -/
def signalVec (v : Fin 16) (s : State) : State :=
  if !s.hst.pcie.msixEn then s
  else if s.hst.pcie.funcMask || msixMasked s v then { s with hst := { s.hst with pba := bitSet s.hst.pba v.val true } }
  else { s with hst := { s.hst with sent := vupd s.hst.sent v (· + 1) } }

/-- Whether the ring engine writes and fetches nothing: it is under test, or its test at shut-down has begun (R398,
R490). -/
def hstIdle (s : State) : Bool := s.hst.stopped || s.bst.block = 0x0C#8

/-- An entry at the CQ tail: it takes the phase, the tail advances, the phase flips at the wrap (R381, R383). -/
def cqWrite (r : Fin 8) (e : CqEntry) (s : State) : State :=
  let s := modRing r (fun x =>
    let next := (x.cqTail + 1) % ringSize x
    { x with cq := x.cq ++ [{ e with phase := x.phase }], cqTail := next,
             phase := if next = 0 then !x.phase else x.phase }) s
  signalVec (vecOf s.hst.rings[r].vec) s

/-- A completion: it waits while the CQ is full, behind those that wait already (R382). -/
def cqComplete (r : Fin 8) (e : CqEntry) (s : State) : State :=
  if !s.hst.rings[r].en || hstIdle s then s
  else if cqFull s.hst.rings[r] || !s.hst.rings[r].waitq.isEmpty then
    modRing r (fun x => { x with waitq := x.waitq ++ [e] }) s
  else cqWrite r e s

/-- A status or event entry: one that finds the CQ full is discarded and counted, HST_CQ_LOST at most once per ring in
each cycle, and the next one carries LOST_BEFORE (R382). -/
def cqPost (r : Fin 8) (e : CqEntry) (s : State) : State :=
  let x := s.hst.rings[r]
  if !x.en || hstIdle s then s
  else if cqFull x then
    let s := modRing r (fun x => { x with lost := satInc x.lost, lostFlag := true, cqLostRaised := true }) s
    if x.cqLostRaised then s else nvEvent Ev.hstCqLost (w32 r.val) 0#32 s
  else
    let s := modRing r (fun x => { x with lostFlag := false }) s
    cqWrite r { e with lostBefore := x.lostFlag } s

/-- The completion entry of a command (R385). -/
def complEntry (s : State) (c : Cmd) (status detail : Nat) (d0 d1 : Dword) : CqEntry :=
  { typ := 1, phase := false, lostBefore := false, id := c.desc.cid, a := BitVec.ofNat 8 status,
    b := BitVec.ofNat 8 detail, c := BitVec.ofNat 16 (c.idx % 4096), cyc := s.scn.cycle, data0 := d0, data1 := d1 }

/-- The outstanding command of a reference. -/
def cmdOf (s : State) (ref : CmdRef) : Option Cmd := s.hst.rings[ref.ring].outs.find? (fun c => c.no = ref.no)

/-- An outstanding command completes: it leaves the count of R386 and its entry is written. A command that the loss of
the link or the disabling of its ring has discarded completes no more (R377, R379). -/
def completeWith (ref : CmdRef) (status detail : Nat) (d0 d1 : Dword) (s : State) : State :=
  match cmdOf s ref with
  | none => s
  | some c =>
    let s := modRing ref.ring (fun x => { x with outs := x.outs.filter (fun y => y.no ≠ ref.no) }) s
    cqComplete ref.ring (complEntry s c status detail d0 d1) s

/-- A completion without data. -/
def complete (ref : CmdRef) (status detail : Nat) (s : State) : State := completeWith ref status detail 0#64 0#64 s

/-- The STATUS codes of R393. -/
def St.ok : Nat := 0
def St.badOpcode : Nat := 1
def St.badParam : Nat := 2
def St.notTagged : Nat := 3
def St.keyEmpty : Nat := 4
def St.tagFail : Nat := 5
def St.seqStale : Nat := 6
def St.refused : Nat := 7
def St.superseded : Nat := 8
def St.shutdown : Nat := 9
def St.dmaError : Nat := 10
def St.payloadCrc : Nat := 11
def St.absent : Nat := 12

/-- The DETAIL codes of R393. -/
def Dt.mode : Nat := 1
def Dt.key : Nat := 2
def Dt.image : Nat := 3
def Dt.busy : Nat := 4
def Dt.target : Nat := 5
def Dt.boundary : Nat := 6

/-- Eight bytes as a little-endian 64-bit value. -/
def dwordOf (bs : List Byte) : Dword := BitVec.ofNat 64 (ofLe bs)

/-- A status entry of a partition (R385, R396): `src` in the numbering of RDB selector 5. -/
def postStatus (r : Fin 8) (slot src : Nat) (user : BitVec 16) (s : State) : State :=
  let base := 0x100000 * r.val + 0x20 * slot
  cqPost r { typ := 2, phase := false, lostBefore := false, id := BitVec.ofNat 16 slot, a := BitVec.ofNat 8 src,
             b := 0#8, c := user, cyc := s.scn.cycle, data0 := dwordOf (getBytes s.hst.statMem base 8),
             data1 := dwordOf (getBytes s.hst.statMem (base + 8) 8) } s

/-! ### Shut-down (R398) -/

def modHst (f : Hst → Hst) (s : State) : State := { s with hst := f s.hst }

/-- The DETAIL of a ring 4 command in SHUTDOWN, an R208 code (R192, R193, R393): MODE for BEGIN, ACTIVATE and ROLLBACK, OK
for QUERY, STATE for the others. -/
def shutDetail (op : Nat) : Nat := if op = 0x41 ∨ op = 0x44 ∨ op = 0x46 then 9 else if op = 0x48 then 0 else 8

/-- Every outstanding command that has not taken effect completes with DEVICE_SHUTTING_DOWN, the accepted request for
SHUTDOWN with OK. What a command of ring 4 ends with shows in OLC_STAT (R210). -/
def hostShutdown (ok : Option CmdRef) (s : State) : State :=
  let s := modHst (fun h => { h with sd := true, msgs := [], keyStores := [] }) s
  let s := { s with scn := { s.scn with reqs := [], stepPending := false },
                    pim := { s.pim with hreq := [], hsnap := [], cmds := [] } }
  forEach (fins 8) (fun r s => forEach s.hst.rings[r].outs (fun c s =>
    if ok = some ⟨r, c.no⟩ then complete ⟨r, c.no⟩ St.ok 0 s
    else if r.val = 4 then
      let n := shutDetail c.desc.opcode.toNat
      complete ⟨r, c.no⟩ St.shutdown n { s with olc := { s.olc with result := BitVec.ofNat 8 n } }
    else complete ⟨r, c.no⟩ St.shutdown 0 s) s) s

end Sys2Proof.Machine
end

