-- ==== Sys2Proof/Machine/Stops.lean ====
section
/-!
DEFINITION. Handling intervals and NMIs (R461 to R465), and the stops that events cause: of a partition (R26, R159), of a
triad (R26, R88) and of the module (R27, R147, R398).
-/
namespace Sys2Proof.Machine

open Sys2Proof

/-! ### Stops -/

/-- A core stops executing at once; what it presented and has not been released is gone (R159). -/
def Core.halt (c : Core) : Core := { c with run := .idle, out := none, nmiSave := none, nmiCode := 0 }

/-- Every core in a lane of a triad stops. -/
def haltLanes (t : TriadId) (s : State) : State :=
  forEach (fins 3) (fun l s => match s.triads[t].cores[l] with
    | some c => modCore c Core.halt s
    | none => s) s

/-- The handling interval of a triad ends, and its pending NMIs are discarded (R135, R461): for whatever the partition stops
by, a choice of the model where R135 names a trap (log entry 114). -/
def closeHnd (t : TriadId) (s : State) : State :=
  modHnd t (fun h => { h with isOpen := false, taken := false, nmis := [], active := none, retn := 0#3,
                              late := Vector.replicate 3 0 }) s

/-- A CAN request status word (R366). -/
def canStat (cyc state err : Nat) (suspect late : Bool) : Word :=
  w32 (cyc % 65536 * 65536 + (if suspect then 2048 else 0) + (if late then 1024 else 0) + err * 16 + state)

/-- The requests chosen, pending, waiting or in transmission, end NOT_SENT; a frame of theirs on the wire is cut off, and a
request that waited behind it takes its place (R357, R363, R364). The status word of an entry describes its latest request,
with what the request has shown of a collision (R365, R367). -/
def Can.drop (hit : CanReq → Bool) (x : Can) : Can :=
  let last := x.reqs.filter (fun r => hit r && !r.old && !x.waiting.any (fun w => w.entry = r.entry))
  let stay := x.reqs.filter (fun r => !hit r)
  let (behind, next) := (x.waiting.filter (fun r => !hit r)).partition (fun w => stay.any (fun r => r.entry = w.entry))
  let stat := last.foldl (fun m r =>
    SMap.set 0#32 m r.entry (canStat r.cyc 7 0 (bit (SMap.get 0#32 x.stat r.entry) 11) false)) x.stat
  { x with reqs := stay ++ next, waiting := behind,
           stat := (x.waiting.filter hit).foldl
             (fun m r => SMap.set 0#32 m r.entry (canStat r.cyc 7 0 false false)) stat }

/-- The transmitter delay that a FD frame measures (R354): TDCV in CAN clock periods, TDCF at least, and what it makes of
TDC_OVF. The delay is a free value, and so is whether the attempt came past the edge from FDF to res, where `past` does not
say it. -/
def canMeasure (c : Fin 4) (r : CanReq) (past : Option Bool) (s : State) : State :=
  if bit s.can[c].cfgAct 2 && bit r.frame.id 31 then
    let (w, s) := draw s
    if past.getD (bit w 31) then
      modCan c (fun x =>
        let tdcv := max (fld x.tdcAct 8 7) (fld w 0 31)
        { x with tdcv := satOf 5 (tdcv / 4), tdcOvf := decide (127 < tdcv + fld x.tdcAct 0 7) }) s
    else s
  else s

/-- A chosen request whose frame is on the wire is about to be cut off: it may have measured the delay by then (R354). -/
def canCutOff (hit : CanReq → Bool) (c : Fin 4) (s : State) : State := match s.can[c].reqs.find? (·.onWire) with
  | some r => if hit r then canMeasure c r none s else s
  | none => s

/-- On every channel, the requests of the owners chosen end NOT_SENT (R357), and the control words that they have stored
for an Emit that does not come count for nothing (R362). -/
def canWithdraw (mine : CanOwner → Bool) (s : State) : State :=
  forEach (fins 4) (fun c s => modCan c (fun x =>
    { x.drop (fun r => mine r.owner) with ctl := x.ctl.filter (fun y => match ownerOf s (.canTx c y.1) with
        | some p => !mine (.vital p)
        | none => true) }) (canCutOff (fun r => mine r.owner) c s)) s

/-- The Ubuno frames chosen are cut off: their enable is withdrawn (R51, R53, R326). -/
def ubCut (hit : UbTx → Bool) (s : State) : State :=
  forEach (fins 2) (fun b s => modUb b (fun x => { x with sent := x.sent.filter (fun f => !hit f) }) s) s

/-- The voted enable of a triad that no longer runs is withdrawn: a Ubuno frame or a non-vital CAN frame that it covers is
cut off, and with no triad left no non-vital request can be sent (R53, R357, R368). -/
def enablesLost (s : State) : State :=
  let dead := !(fins 5).any (formed s)
  let hit := fun (r : CanReq) => match r.owner with
    | .vital _ => false
    | .nonvital _ => dead || (r.onWire && r.enBy.any (fun t => !formed s t))
  forEach (fins 4) (fun c s => modCan c (Can.drop hit) (canCutOff hit c s)) (ubCut (fun f => !formed s f.by_) s)

/-- SCN_STAT.PHASE reads 3 once no vital partition is solving (R162). -/
def phaseEnd (s : State) : State :=
  if s.scn.phase = 2#2 && (fins 5).all (fun p => !s.parts[p].entered) then
    { s with scn := { s.scn with phase := 3#2 } }
  else s

/-- A vital partition stops: its cores stop at once, nothing they wait on is released, no Emit takes place, its voting
state is discarded, its CAN requests end NOT_SENT and the code of its outputs stops (R26, R146, R159, R357). -/
def stopPart (p : PartId) (s : State) : State :=
  if s.parts[p].st = .stopped then s else
  let s := modPart p (fun x => { x with st := .stopped, entered := false, emitting := false }) s
  let s := match triadOf s p with
    | some t => svyDiscard [t] (closeHnd t (modVoter t (fun _ => Voter.init) (haltLanes t s)))
    | none => s
  refreshCodes (phaseEnd (ubCut (fun f => f.part = some p) (canWithdraw (· = .vital p) s)))

/-- If no triad runs, the module sends nothing on its Ubuno buses, and UB_SILENT is raised once (R339). -/
def ubSilence (s : State) : State :=
  if (fins 5).any (formed s) || s.scn.mode = .start || s.scn.mode = .shutdown then s
  else forEach (fins 2) (fun b s =>
    if !hasUb s b || s.ub[b].st = .off || s.ub[b].silentRaised then s
    else nvEvent (ubEv b Ev.ubSilent) 0#32 0#32 (modUb b (fun x => { x with silentRaised := true }) s)) s

/-! ### The engines of Heel (R71, R74) -/

/-- Whether a Heel runs a pass. -/
def Heel.running (h : Heel) : Bool := h.st = .full || h.st = .catchup

/-- A pass starts for a triad on its bank's engine (R71, R74). -/
def heelStartPass (t : TriadId) (b : Lane) (s : State) : State :=
  let s := { s with tri := { s.tri with engineLast := vset s.tri.engineLast b (t.val + 1) } }
  modHeel t (fun h =>
    if h.pass = 0 then { h with st := .full, pages := [], dirty := [], unres := [] }
    else { h with st := .catchup, pages := h.unres.foldl (fun l x => insNat x l) h.dirty, dirty := [], unres := [] }) s

/-- The engine of a bank serves the triads that wait for it in rotation, one pass at a time (R71). -/
def heelPump (b : Lane) (s : State) : State :=
  if (fins 5).any (fun t => s.triads[t].heel.running && s.triads[t].heel.bank = some b) then s
  else
    let waits := (fins 5).filter (fun t => s.triads[t].heel.st = .waitEngine && s.triads[t].heel.bank = some b)
    let order := waits.filter (fun t => decide (s.tri.engineLast[b] ≤ t.val)) ++
      waits.filter (fun t => decide (t.val < s.tri.engineLast[b]))
    match order with
    | [] => s
    | t :: _ => heelStartPass t b s

/-- The Heel of a triad is abandoned, with no rewrite pending, and its bank's engine serves the next one (R74, R77). -/
def heelAbandon (t : TriadId) (s : State) : State :=
  let bank := s.triads[t].heel.bank
  let s := modHeel t (fun h => { h with st := .none, pages := [], dirty := [], unres := [] }) s
  match bank with
  | some b => heelPump b s
  | none => s

/-- A triad stops: it stays STOPPED until the next start, its partition stops, Heel is abandoned (R26, R77, R88). -/
def stopTriad (t : TriadId) (s : State) : State :=
  if s.triads[t].mode = .stopped then s else
  let s := heelAbandon t s
  let s := modTriad t (fun x => { x with mode := .stopped, voter := Voter.init, stopCycle := some s.scn.cycle }) s
  let s := closeHnd t (haltLanes t s)
  let s := match s.triads[t].part with
    | some p => if s.parts[p].st = .none then refreshCodes s else stopPart p s
    | none => refreshCodes s
  ubSilence (enablesLost s)

/-- An output exercise ends: the channel falls and EXER_END is raised (R295). -/
def endExercise (s : State) : State :=
  match s.saf.exer with
  | none => s
  | some (ch, _) =>
    let s := { s with saf := { s.saf with exer := none, exerOn := false, exerEnd := 0 } }
    if s.dio.outs[ch].exer then
      let s := forEach (gangOf s ch) (fun c => modOut c (fun o => { o with exer := false, want := false,
                                                                           credit := none })) s
      refreshCodes (nvEvent Ev.exerEnd (w32 (if ch.val < 24 then ch.val else 256 + (ch.val - 24))) 0#32 s)
    else s

/-- A partition that was stopped alone enters Solve again at the first entry into RUN or HOLD from STOP or SAFE, if its
triad is then formed (R160). -/
def revive (p : PartId) (s : State) : State :=
  if s.parts[p].st = .stopped then
    match triadOf s p with
    | some t => if formed s t then modPart p (fun x => { x with st := .ready }) s else s
    | none => s
  else s

/-- A mode transition: PREV, CAUSE, MODE_CHANGED, and what every transition brings with it (R150, R160, R295). -/
def setMode (m : Mode) (cause : Nat) (s : State) : State :=
  let old := s.scn.mode
  let s := { s with scn := { s.scn with mode := m, prev := some old, cause := cause } }
  let s := if (m = .run ∨ m = .hold) ∧ (old = .stop ∨ old = .safe) then forEach (fins 5) revive s else s
  let s := nvEvent Ev.modeChanged 0#32 (w32 (old.code + 256 * m.code)) s
  let s := if m = .stop then s else endExercise s
  refreshCodes s

/-- Every partition stops because the module leaves the modes that solve: none counts as stopped alone (R27). That the
lag windows still open are discarded, so that no ODD_LATE follows from them, is a choice of the model: R146 names those of
partitions that overran (log entry 113). -/
def haltAll (s : State) : State :=
  let s := forEach (fins 5) (fun p => modPart p (fun x =>
    { x with st := if x.st = .solving ∨ x.st = .ended then .ready else x.st, entered := false, emitting := false })) s
  let s := forEach (fins 5) (fun t s =>
    if formed s t then closeHnd t (modVoter t (fun _ => Voter.init) (haltLanes t s)) else s) s
  let s := forEach (fins 16) (fun c s => match s.cores[c].nv with
    | some k => if s.nvs[k].st = .running then
        modNv k (fun x => { x with st := .done, last := usSince s.cores[c].nvSince s.tb }) s else s
    | none => s) s
  let s := forEach (fins 16) (fun c s =>
    if s.cores[c].st = .unleashed then modCore c (fun x => { x.halt with nv := none, nvIdle := [] }) s else s) s
  let s := { s with crc := vmap (fun u => { u with jobs := [] }) s.crc }
  phaseEnd (ubCut (fun f => f.part.isSome) (canWithdraw (fun _ => true)
    (svyDiscard ((fins 5).filter (fun t => s.triads[t].part.isSome)) s)))

/-- Entry into SAFE from any cause, at once (R27, R147, R150). A module that is ACTIVE in a twin, its partner equal
(R419), hands over at the next boundary (R422). -/
def enterSafe (code : Nat) (s : State) : State :=
  let s := haltAll s
  let s := { s with scn := { s.scn with safeThisCycle := true },
                    rck := { s.rck with safeDue := s.rck.safeDue ||
                      (s.rck.twinEnAct && s.rck.role = .active && s.rck.peerEqual) } }
  logModule 4 (setMode .safe code s)

/-- Whether START is still before the end of its quick check or self-test (R485). -/
def beforeTest (s : State) : Bool := match s.bst.ph with
  | .off | .clock | .quick | .full | .retry => true
  | _ => false

/-- A start self-test fails: SHUTDOWN at once, outstanding commands end as in any SHUTDOWN (R398), and no shut-down test
runs (R483, R489). -/
def failStart (cause : Nat) (s : State) : State :=
  let s := { s with bst := { s.bst.quiet with noTest := true, ph := .over, phase := 3#3, wait := false } }
  hostShutdown none (setMode .shutdown cause s)

/-- What a FATAL event leaves in ERR_FF, the failure history and the test record (R459, R479, R506). -/
def fatalNote (code : Nat) (a b : Word) (s : State) : State :=
  let s := if s.err.ffValid then s else
    { s with err := { s.err with ffValid := true, ffCode := BitVec.ofNat 16 code, ffCyc := w32 s.scn.cycle } }
  invalidateRec code (history code 0xFF#8 a b s)

/-- What a FATAL event does besides being counted and queued (R459, R479, R485, R506). -/
def fatalAct (code : Nat) (a b : Word) (s : State) : State :=
  let s := fatalNote code a b s
  match s.scn.mode with
  | .safe => nvEvent Ev.fatalInSafe 0#32 0#32 s
  | .shutdown => nvEvent Ev.fatalInSafe 0#32 0#32 s
  | .start => if beforeTest s then failStart code s else enterSafe code s
  | _ => enterSafe code s

/-- ERR_QUEUE_FULL, which meets the full queue itself: counted and acted on (R467). -/
def queueFull (s : State) : State := fatalAct Ev.errQueueFull 0#32 0#32 (countEv Ev.errQueueFull s)

/-- A FATAL event (R458, R459, R467). -/
def fatalEvent (code : Nat) (a b : Word) (s : State) : State :=
  let full := !vqRoom s
  if evMuted s code then s else
  let s := fatalAct code a b (queueV code 0xFF#8 a b s)
  if full then queueFull s else s

/-! ### VITAL events -/

/-- An NMI for a triad: at most four can be pending (R133, R465). `own` marks that of the handling interval. -/
def postNmi (t : TriadId) (code : Nat) (own : Bool) (s : State) : State :=
  modHnd t (fun h => if h.nmis.length < 4 then { h with nmis := h.nmis ++ [(code, own)] } else h) s

/-- A vital partition as the `who` of an event (R385). -/
def partWho (p : PartId) : Byte := BitVec.ofNat 8 p.val

/-- A triad as the `who` of an event. -/
def whoOf (t : TriadId) : Byte := BitVec.ofNat 8 t.val

/-- LAST_EVT of TRI_STATE_n takes the code of an event of R58 (R61). -/
def noteLast (code : Nat) (t : TriadId) (s : State) : State :=
  if 0x0201 ≤ code ∧ code ≤ 0x0210 then modTriad t (fun x => { x with lastEvt := code }) s else s

/-- The module's own action is over and the partition goes on: an interval opens, or the second event stops the triad
with NESTED_STOP (R461, R463). -/
def handleVital (code : Nat) (a b : Word) (t : TriadId) (s : State) : State :=
  if (runningPart s t).isNone || s.scn.mode = .safe || s.scn.mode = .shutdown then s
  else if s.triads[t].hnd.isOpen then
    let first := s.triads[t].hnd.code
    let s := history code (whoOf t) a b (stopTriad t s)
    nvEventFor Ev.nestedStop (whoOf t) (w32 first) (w32 code) s
  else
    postNmi t code true (modHnd t (fun h => { h with isOpen := true, taken := false, code := code }) s)

/-- Counting and queueing of a VITAL event, and the FATAL event that a full queue brings after the action `act`. -/
def vitalWith (code : Nat) (a b : Word) (t : TriadId) (act : State → State) (s : State) : State :=
  let full := !vqRoom s
  let s := act (noteLast code t (queueV code (whoOf t) a b s))
  if full then queueFull s else s

/-- A VITAL event after whose own action the partition goes on (R460, R461, R463). -/
def vitalKeeps (code : Nat) (a b : Word) (t : TriadId) (s : State) : State :=
  vitalWith code a b t (handleVital code a b t) s

/-- A VITAL event that stops its triad (R463). A triad that does not run is not affected (R460). -/
def vitalStopsTriad (code : Nat) (a b : Word) (t : TriadId) (s : State) : State :=
  vitalWith code a b t (fun s =>
    if formed s t then history code (whoOf t) a b (stopTriad t s) else s) s

/-- A VITAL event that stops its partition and leaves the triad formed (R463). -/
def vitalStopsPart (code : Nat) (a b : Word) (t : TriadId) (s : State) : State :=
  vitalWith code a b t (fun s => match runningPart s t with
    | some p => stopPart p s
    | none => s) s

/-- The channel number of a DIO or SAF event: bit 8 set for a brake channel (R471). -/
def chanArg (ch : Chan) : Word := w32 (if ch.val < 24 then ch.val else 256 + (ch.val - 24))

/-- A VITAL event for the owner of a channel (R460): with no owning triad it names none, and is counted and queued. -/
def vitalForChanArg (code : Nat) (ch : Chan) (a : Word) (s : State) : State :=
  match chanTriad s ch with
  | some t => vitalKeeps code a 0#32 t s
  | none =>
    let full := !vqRoom s
    let s := queueV code 0xFF#8 a 0#32 s
    if full then queueFull s else s

/-- The same with the channel number as ARG_A, as DIO and SAF give it (R471). -/
def vitalForChan (code : Nat) (ch : Chan) (s : State) : State := vitalForChanArg code ch (chanArg ch) s

/-- Whether vital partitions run in the mode: SAFE and SHUTDOWN stop them (R27, R488). -/
def solving (s : State) : Bool := s.scn.mode ≠ .safe && s.scn.mode ≠ .shutdown

/-- CLK_XO_FAIL: non-maskable, an NMI to every triad that carries a running partition, no interval (R433, R465). -/
def xoFailEvent (count : Word) (s : State) : State :=
  let s := nvEvent Ev.clkXoFail 0#32 count s
  forEach (fins 5) (fun t s => if solving s && (runningPart s t).isSome then postNmi t Ev.clkXoFail false s else s) s

/-! ### Absent units (R3) -/

/-- The absent unit that a BAR0 offset names (R3, R245, R510): its block ID, or 0x20 plus a CAN channel. -/
def absentUnit (s : State) (ofs : Nat) : Option Nat :=
  let b := ofs / 0x800
  if b = 6 && !s.variant.svy || b = 7 && !s.variant.dio || b = 10 && !s.variant.ubb then some b
  else if b = 11 && decide (s.variant.cans ≤ ofs % 0x800 / 0x200) then some (0x20 + ofs % 0x800 / 0x200)
  else none

/-- An access to an absent unit: ABSENT_UNIT once per unit in each cycle (R3). -/
def touchAbsent (unit ofs : Nat) (s : State) : State :=
  if s.absent.contains unit then s
  else nvEvent Ev.absentUnit (w32 ofs) 0#32 { s with absent := s.absent ++ [unit] }

/-- A write to a register: an absent unit follows R3, a block under test ignores it (R490). -/
def onReg (ofs : Nat) (f : State → State) (s : State) : State :=
  match absentUnit s ofs with
  | some u => touchAbsent u ofs s
  | none => if s.bst.block.toNat = ofs / 0x800 then s else f s

end Sys2Proof.Machine
end

