-- ==== Sys2Proof/Machine/Pim.lean ====
section
/-!
DEFINITION. The process image (R164 to R183): how a lane loads and stores a signal, the quality word it reads, released
signal stores, Agree's writes, substitution, forces at a boundary, and the timer and edge blocks of R175 to R178.
-/
namespace Sys2Proof.Machine

open Sys2Proof

/-! ### Quality words (R170) -/

def qSubst : Nat := 1
def qFault : Nat := 2
def qBreak : Nat := 4
def qStopped : Nat := 8
def qProof : Nat := 16
def qOverlay : Nat := 32
def qForced : Nat := 64

/-- A quality word from its age, its source and its flags. -/
def qual (age source flags : Nat) : Word := w32 ((if age < 65536 then age else 65535) * 65536 + source * 4096 + flags)

/-- The flags of a quality word. -/
def qFlags (q : Word) : Nat := q.toNat % 128

/-- The source field of a quality word. -/
def qSource (q : Word) : Nat := fld q 12 4

/-- The age of a quality word. -/
def qAge (q : Word) : Nat := fld q 16 16

/-- A value as a signal holds it: a Boolean holds 0 or 1 (R113). -/
def Sig.norm (g : Sig) (v : Word) : Word := if g.word then v else b2w (v ≠ 0#32)

/-- Whether a field object list writes a signal. -/
def objWrites (l : List FieldObj) (g : Sig) : Bool := l.any (fun o => o.word = g.word && o.signal = g.addr)

/-- Whether a local input, a channel status word or a brake test word writes a signal (R173). -/
def localWrites (im : Image) (g : Sig) : Bool :=
  if g.word then
    (fins 24).any (fun n => im.io.outs[n].status = some g.addr) ||
    (fins 4).any (fun k => im.io.sbcs[k].status = some g.addr) ||
    (fins 4).any (fun k => match im.safety.brk[k] with
      | some b => b.testWord = g.addr
      | none => false)
  else (fins 48).any (fun n => im.io.ins[n].signal = some g.addr)

/-- Whether a bus writes a signal: an object, or one of the 64 words of R335. -/
def ubWrites (d : UbDesc) (g : Sig) : Bool :=
  objWrites d.objects g || (g.word && match d.bitmapBase with
    | some b => decide (b ≤ g.addr ∧ g.addr < b + 64)
    | none => false)

/-- The source through which an image delivers a signal (R173). -/
def sourceOf (im : Image) (g : Sig) : Nat :=
  match g.area with
  | .hostReq => 5
  | .boundary => 6
  | .output => 7
  | .internal => 0
  | .input =>
    if localWrites im g then 1
    else if ubWrites im.io.ub[0] g then 2
    else if ubWrites im.io.ub[1] g then 3
    else if im.io.rack.any (fun r => objWrites r.2.objects g) || (g.word && im.io.twinWord = some g.addr) then 4
    else 0

/-- The quality of an input or host request signal that no source has delivered: SUBST, the source of the image, and
the boundaries since START as the age (R170, R173). -/
def qualInit (s : State) (g : Sig) : Word :=
  qual s.scn.cycle (match s.olc.active with
    | some im => sourceOf im g
    | none => if g.area = .hostReq then 5 else 0) qSubst

/-- The quality word that the system area of a bank holds for an input or host request signal. Bit 7, reserved in a
quality word, marks in the stored map a signal that some Agree has written. -/
def areaQual (s : State) (l : Lane) (g : Sig) : Word :=
  let q := SMap.get 0#32 s.pim.img[l].qual g.key
  if q = 0#32 then qualInit s g else q &&& 0xFFFFF07F#32

/-! ### Loads (R164 to R170, R180) -/

/-- The force that acts on a reader's load: an internal signal belongs to its partition (R165). -/
def forceFor (s : State) (reader : Option PartId) (g : Sig) : Option Word :=
  if g.area = .internal then
    (s.pim.forces.find? (fun f => f.sig = g && match s.olc.active with
      | some im => (im.gaz[f.gaz]?).map (·.part) = reader
      | none => false)).map (·.value)
  else forceOf s g

/-- Whether a reader is the owner of a signal. -/
def isOwner (s : State) (reader : Option PartId) (g : Sig) : Bool :=
  reader.isSome && ownerOf s (.signal g) = reader

/-- The overlay value of a partition for a signal in a bank (R168). -/
def overlayOf (s : State) (l : Lane) (reader : Option PartId) (g : Sig) : Option Word :=
  reader.bind (fun p => SMap.get none s.pim.img[l].ovl[p] g.key)

/-- The value of a signal in a bank for a reader, without forces and overlays. A non-vital reader (none) reads 0 from
the internal area (R169). -/
def areaVal (s : State) (l : Lane) (reader : Option PartId) (g : Sig) : Word :=
  match g.area with
  | .input => SMap.get 0#32 s.pim.img[l].cur g.key
  | .hostReq => SMap.get 0#32 s.pim.img[l].cur g.key
  | .output => SMap.get 0#32 (if isOwner s reader g then s.pim.img[l].cur else s.pim.img[l].cpy) g.key
  | .boundary => SMap.get 0#32 (if isOwner s reader g then s.pim.img[l].cur else s.pim.img[l].cpy) g.key
  | .internal => match reader with
    | some p => SMap.get 0#32 s.pim.img[l].ints[p] g.key
    | none => 0#32

/-- A signal load: force, then overlay, then area value (R180). -/
def pimLoad (s : State) (l : Lane) (reader : Option PartId) (g : Sig) : Word :=
  match forceFor s reader g with
  | some v => v
  | none => match g.area with
    | .input => (overlayOf s l reader g).getD (areaVal s l reader g)
    | .hostReq => (overlayOf s l reader g).getD (areaVal s l reader g)
    | _ => areaVal s l reader g

/-- OWNER_STOPPED of an output or boundary signal from the boundary at which its owner is stopped until the owner enters
Solve again, and SUBST while the copies hold substitutes: until the next boundary copies the owner's values (R167, R170). -/
def stoppedFlags (s : State) (reader : Option PartId) (g : Sig) : Nat :=
  match ownerOf s (.signal g) with
  | some p =>
    if reader = some p then 0
    else (if s.parts[p].substOut then qStopped else 0) + (if s.parts[p].cpySubst then qSubst else 0)
  | none => 0

/-- The quality word a reader loads (R170). FORCED excludes OVERLAY: the force is what was returned. -/
def pimQuality (s : State) (l : Lane) (reader : Option PartId) (g : Sig) : Word :=
  let forced := (forceFor s reader g).isSome
  let f := if forced then qForced else 0
  match g.area with
  | .internal => if reader.isNone then 0#32 else w32 f
  | .output => qual 0 7 (f + stoppedFlags s reader g)
  | .boundary => qual 0 6 (f + stoppedFlags s reader g)
  | _ =>
    let o := if !forced && (overlayOf s l reader g).isSome then qOverlay else 0
    areaQual s l g ||| w32 (f + o)

/-! ### Stores -/

/-- A lane's own store to the internal, input or host request area (R114, R165, R168). -/
def pimStore (l : Lane) (p : PartId) (g : Sig) (v : Word) (s : State) : State :=
  let page := slicePage s p g
  if g.area = .internal then
    modImg l (fun m => { m with ints := vupd m.ints p (fun x => SMap.set 0#32 x g.key (g.norm v)) }) (notePage p page s)
  else modImg l (fun m => { m with ovl := vupd m.ovl p (fun x => SMap.set none x g.key (some (g.norm v))) })
    (noteDirty p page s)

/-- A value into the input, host request, owner or NEXT place of all three banks (R40, R166). -/
def setCur (g : Sig) (v : Word) (s : State) : State :=
  forEach (fins 3) (fun l => modImg l (fun m => { m with cur := SMap.set 0#32 m.cur g.key (g.norm v) })) s

/-- A value into the copies at B of all three banks. -/
def setCpy (g : Sig) (v : Word) (s : State) : State :=
  forEach (fins 3) (fun l => modImg l (fun m => { m with cpy := SMap.set 0#32 m.cpy g.key (g.norm v) })) s

/-- A released store to the output or boundary area (R40, R166), with the page of the owner's slice. A boundary signal is
held in the system area, so that Heel does not see its page and the equaliser does (R72, R416). -/
def releaseSignal (p : PartId) (g : Sig) (v : Word) (s : State) : State :=
  let page := slicePage s p g
  setCur g v (if g.area = .boundary then noteSent p page s else notePage p page s)

/-- Two of the three banks' area values of a signal, without forces and overlays. -/
def majArea (s : State) (reader : Option PartId) (g : Sig) : Word :=
  let a := areaVal s 0 reader g
  let b := areaVal s 1 reader g
  let c := areaVal s 2 reader g
  (a &&& b) ||| (a &&& c) ||| (b &&& c)

/-- The value of a signal that the hand-over at Emit reads: the force, else two of three banks (R180). -/
def majSignal (s : State) (reader : Option PartId) (g : Sig) : Word := (forceFor s reader g).getD (majArea s reader g)

/-! ### Agree -/

/-- Agree writes a quality word in all three banks (R164, R170). -/
def agreeQual (g : Sig) (q : Word) (s : State) : State :=
  forEach (fins 3) (fun l => modImg l (fun m => { m with qual := SMap.set 0#32 m.qual g.key (q ||| 0x80#32) })) s

/-- Agree writes a value and its quality word in all three banks. -/
def agreeWrite (g : Sig) (v q : Word) (s : State) : State :=
  let s := setCur g v s
  let s := { s with pim := { s.pim with lastHold := SMap.set 0#32 s.pim.lastHold g.key 0#32 } }
  agreeQual g q s

/-- A boundary without a fresh value: the age counts on (R170), from START on for a signal never delivered. -/
def ageQual (s : State) (g : Sig) : Word :=
  let q := SMap.get 0#32 s.pim.img[(0 : Lane)].qual g.key
  if q = 0#32 then qualInit s g else qual (qAge q + 1) (qSource q) (qFlags q)

/-- A signal under its substitution trigger at an Agree (R171, R172): SAFE takes the safe value; LAST keeps the value
for HOLD Agrees, counted in `lastHold`, and then takes the safe value. SUBST is set and AGE counts on. -/
def agreeSubst (g : Sig) (mode : Subst) (extra : Nat) (s : State) : State :=
  let q := ageQual s g
  let q' := qual (qAge q) (qSource q) (qSubst + extra)
  let n := (SMap.get 0#32 s.pim.lastHold g.key).toNat
  match mode with
  | .safe => agreeQual g q' (setCur g (safeOf s g) s)
  | .last hold =>
    let s := { s with pim := { s.pim with lastHold := SMap.set 0#32 s.pim.lastHold g.key (w32 (n + 1)) } }
    if n < hold then agreeQual g q' s else agreeQual g q' (setCur g (safeOf s g) s)

/-- The input and host request signals of the image, from the Gazetteer. -/
def substSigs (s : State) : List Sig := match s.olc.active with
  | some im => (im.gaz.filterMap (·.sig)).filter (fun g => g.area = .input || g.area = .hostReq)
  | none => []

/-- PIM_STAT.SUBST at AGREE_END (R184). -/
def countSubst (s : State) : Nat :=
  (substSigs s).countP (fun g => bit (areaQual s 0 g) 0)

/-! ### The boundary -/

/-- The output and boundary signals of a partition. -/
def ownedSigs (s : State) (p : PartId) : List Sig := match s.olc.active with
  | some im => im.owners.filterMap (fun o => match o.dest with
    | .signal g => if o.owner = p ∧ (g.area = .output ∨ g.area = .boundary) then some g else none
    | _ => none)
  | none => []

/-- Step 1 of R145 for one partition's signals: the copies follow the owner, or hold substitutes (R166, R167). A
partition that the watchdog stops at this very boundary is stopped in step 2 only. -/
def copySignals (p : PartId) (s : State) : State :=
  if s.parts[p].st = .stopped && !s.scn.watchdogOvr.contains p then
    let s := modPart p (fun x => { x with substOut := true, cpySubst := true }) s
    forEach (ownedSigs s p) (fun g s => setCpy g (safeOf s g) s) s
  else if s.parts[p].substOut then s
  else forEach (ownedSigs s p) (fun g s =>
    forEach (fins 3) (fun l => modImg l (fun m =>
      { m with cpy := SMap.set 0#32 m.cpy g.key (SMap.get 0#32 m.cur g.key) })) s)
    (modPart p (fun x => { x with cpySubst := false }) s)

/-- Every overlay is cleared at B, and its use is shown (R168, PIM_OVL_n). The signals written are those of the union
of the three banks' overlays. That the clearing is no write that the log of R72 notes is a choice of the model
(log entry 121). -/
def clearOverlays (s : State) : State :=
  let used := fun (p : PartId) =>
    ((fins 3).foldl (fun (ks : List Nat) l => s.pim.img[l].ovl[p].foldl (fun ks e => addNew e.1 ks) ks) []).length
  let s := forEach (fins 5) (fun p s => modPart p (fun x => { x with ovlLast := used p }) s) s
  forEach (fins 3) (fun l => modImg l (fun m => { m with ovl := Vector.replicate 5 [] })) s

/-! ### Forces (R179 to R185) -/

/-- PIM_FORCE_CAP holds the first refusal or removal while VALID is 0. -/
def forceCap (reason : Nat) (g : Sig) (s : State) : State :=
  if s.pim.capValid then s else
    { s with pim := { s.pim with capValid := true, capReason := BitVec.ofNat 4 reason, capSig := g } }

/-- Whether Chartroom marks a signal a vital output-area signal (R181). -/
def vitalOutSig (s : State) (g : Sig) : Bool := match gazOf s g with
  | some e => e.vitalOut
  | none => false

/-- Why a set of a force is refused in a mode under COMM_EN (R181, R185); 0 if it is not. Of several reasons the mode comes
first, then COMM_EN, then the value: a choice of the model (log entry 125). -/
def forceRefusal (s : State) (comm : Bool) (g : Sig) (v : Word) : Nat :=
  if s.scn.mode = .start ∨ s.scn.mode = .shutdown then 5
  else if !comm then 2
  else if s.scn.mode = .run && vitalOutSig s g && decide (g.norm v ≠ safeOf s g) then 3 else 0

/-- A force removed at a boundary: FORCE_REMOVED, and the capture. -/
def removeForce (f : Force) (reason : Nat) (s : State) : State :=
  let s := { s with pim := s.pim.setForces (s.pim.forces.filter (fun x => x ≠ f)) }
  forceCap reason f.sig (nvEvent Ev.forceRemoved f.sig.arg (w32 reason) s)

/-- The safe value of the signal of a force: that of the Gazetteer entry which the force names. That of an internal signal,
to which R171 gives none, is the field of its entry too: a choice of the model (log entry 126). -/
def forceSafe (s : State) (f : Force) : Word :=
  match s.olc.active.bind (fun im => im.gaz[f.gaz]?) with
  | some e => e.safe
  | none => 0#32

/-- The removals of R182, after step 7 of R145. `entered` says that the mode became RUN at this boundary. -/
def sweepForces (entered : Bool) (s : State) : State :=
  forEach s.pim.forces (fun f s =>
    let offVal := decide (f.value ≠ forceSafe s f)
    if entered && vitalOutSig s f.sig && offVal then removeForce f 8 s
    else if s.scn.mode = .run && !s.scn.commEn && offVal then removeForce f 9 s else s) s

/-! ### Timers and edges (R175 to R178) -/

/-- A timer instance: START, RUN, PREV and the outputs Q and ET in milliseconds. -/
structure TimerSt where
  start : Nat
  run : Bool
  prev : Bool
  q : Bool
  et : Nat
  deriving DecidableEq, Repr

/-- PT in ticks: a negative PT acts as 0. -/
def ptTicks (pt : Word) : Nat := pt.toInt.toNat * 100000

/-- TON. -/
def ton (x : TimerSt) (i : Bool) (pt : Word) (tb : Nat) : TimerSt :=
  if !i then { x with q := false, et := 0, run := false }
  else
    let start := if x.run then x.start else tb
    let t := tb - start
    { x with start := start, run := true, q := decide (ptTicks pt ≤ t), et := min t (ptTicks pt) / 100000 }

/-- TOF. -/
def tof (x : TimerSt) (i : Bool) (pt : Word) (tb : Nat) : TimerSt :=
  if i then { x with q := true, et := 0, run := false, prev := true }
  else if x.prev || x.run then
    let start := if x.run then x.start else tb
    let t := tb - start
    if ptTicks pt ≤ t then { start := start, run := false, prev := false, q := false, et := ptTicks pt / 100000 }
    else { start := start, run := true, prev := false, q := true, et := t / 100000 }
  else { x with q := false, prev := false }

/-- TP. -/
def tp (x : TimerSt) (i : Bool) (pt : Word) (tb : Nat) : TimerSt :=
  let x := if !x.run && i && !x.prev then { x with start := tb, run := true } else x
  if x.run then
    let t := tb - x.start
    if ptTicks pt ≤ t then { x with q := false, et := ptTicks pt / 100000, run := false, prev := i }
    else { x with q := true, et := t / 100000, prev := i }
  else { x with q := false, et := if i then x.et else 0, prev := i }

/-- An edge instance: M, the input at its last scan, and INIT. -/
structure EdgeSt where
  m : Bool
  init : Bool
  deriving DecidableEq, Repr

/-- An edge instance that takes its initial values: INIT is set. -/
def EdgeSt.fresh : EdgeSt := ⟨false, true⟩

/-- R_TRIG at a scan: Q, and the instance after, with INIT cleared. -/
def rTrig (x : EdgeSt) (clk : Bool) : Bool × EdgeSt := (!x.init && clk && !x.m, ⟨clk, false⟩)

/-- F_TRIG at a scan. -/
def fTrig (x : EdgeSt) (clk : Bool) : Bool × EdgeSt := (!x.init && x.m && !clk, ⟨clk, false⟩)

end Sys2Proof.Machine
end

