-- ==== Sys2Proof/Machine/Devices.lean ====
section
/-!
DEFINITION. The device windows of a core (R104): what a store reaches (R328, R361, R396, R405), whose it is, how a
released store is written, and the release of CAN requests (R362, R363).
-/
namespace Sys2Proof.Machine

open Sys2Proof

/-- What a device window offset names: a Ubuno payload buffer of a slot or minislot, a minislot's control word, a byte
of a CAN transmit entry, a byte of a host status slot, a byte of the mirror. -/
inductive Dev where
  | ubSlot (bus : Fin 2) (slot : Nat)
  | ubMini (bus : Fin 2) (mini : Nat)
  | ubCtl (bus : Fin 2) (mini : Nat)
  | can (ch : Fin 4) (entry ofs : Nat)
  | status (r : Fin 8) (slot ofs : Nat)
  | mirror (ofs : Nat)
  deriving DecidableEq, Repr

/-- The buffers of a Ubuno window by offset (R328). -/
def ubDev (b : Fin 2) (o : Nat) : Option Dev :=
  if o < 0x80000 then (if 1 ≤ o / 0x100 then some (.ubSlot b (o / 0x100)) else none)
  else if 0x100000 + 0x100 * 1024 ≤ o ∧ o < 0x100000 + 0x100 * 4096 then some (.ubMini b ((o - 0x100000) / 0x100))
  else if 0x200000 + 4 * 1024 ≤ o ∧ o < 0x200000 + 4 * 4096 then some (.ubCtl b ((o - 0x200000) / 4))
  else none

/-- What the byte at a core address minus 0xC000_0000 names on this variant; none traps with ADDR_FAULT (R104, R105). -/
def devOf (s : State) (o : Nat) : Option Dev :=
  if o < 0x1000000 then ubDev 0 o
  else if o < 0x2000000 then (if s.variant.ubb then ubDev 1 (o - 0x1000000) else none)
  else if o < 0x3000000 then
    let n := (o - 0x2000000) / 0x100000
    let x := (o - 0x2000000) % 0x100000
    if h : n < 4 then
      if n < s.variant.cans ∧ x < 0x8000 ∧ x % 0x80 < 80 then some (.can ⟨n, h⟩ (x / 0x80) (x % 0x80)) else none
    else none
  else if o < 0x3800000 then
    let r := (o - 0x3000000) / 0x100000
    let x := (o - 0x3000000) % 0x100000
    if h : r < 8 then
      if (r = 1 ∨ r = 6 ∨ r = 7) ∧ x < 0x20000 ∧ x % 0x20 < 20 then some (.status ⟨r, h⟩ (x / 0x20) (x % 0x20))
      else none
    else none
  else if 0x3800040 ≤ o ∧ o < 0x380C000 then some (.mirror (o - 0x3800000))
  else none

/-- The destination that a device place counts as in the ownership table (R21, R327, R361, R396, R406). -/
def Dev.dest : Dev → Dest
  | .ubSlot b n => .ubSlot b n
  | .ubMini b m => .ubMini b m
  | .ubCtl b m => .ubMini b m
  | .can c e _ => .canTx c e
  | .status _ n _ => .status n
  | .mirror o => .mirror (o / 256)

/-- Whether a vital partition owns a device place. Slots of rings 6 and 7 belong to non-vital partitions (R396). -/
def devOwned (s : State) (d : Dev) (p : PartId) : Bool :=
  match d with
  | .status r _ _ => r = 1 && ownerOf s d.dest = some p
  | _ => ownerOf s d.dest = some p

/-- Whether a non-vital partition may write a device place (R20, R361, R396). -/
def devNv (s : State) (d : Dev) (k : NvId) : Bool :=
  match s.olc.active, d with
  | some im, .can c e _ => (im.io.can[c].nvOwner.any (fun x => x.1 = e && x.2 = k))
  | some im, .status r n _ => im.io.nvStatus.any (fun x => x.1 = r.val && x.2.1 = n && x.2.2 = k)
  | _, _ => false

/-- The enabled bytes of a word, by the byte-enable mask, into a byte map from an aligned offset. -/
def putMasked (m : SMap Byte) (ofs mask : Nat) (v : Word) : SMap Byte :=
  (List.range 4).foldl (fun m i =>
    if (mask >>> i) % 2 = 1 then SMap.set 0#8 m (ofs + i) (BitVec.ofNat 8 (v.toNat >>> (8 * i))) else m) m

/-- A pair in an association list, replacing one with the same key. -/
def setAssoc {α : Type} (l : List (Nat × α)) (k : Nat) (x : α) : List (Nat × α) :=
  l.filter (fun p => p.1 ≠ k) ++ [(k, x)]

/-! ### CAN requests -/

/-- Whether a channel sends at all: neither bus-off, listen-only, nor running from IO (R355, R369). -/
def canMute (x : Can) : Bool := x.st = .busOff || x.st = .listen || x.clkIo

/-- A request of an entry ends, and its status word says how (R365). -/
def canEnd (c : Fin 4) (r : CanReq) (state err : Nat) (suspect late : Bool) (s : State) : State :=
  modCan c (fun x => { x with stat := SMap.set 0#32 x.stat r.entry (canStat r.cyc state err suspect late) }) s

/-- The payload bytes that a DLC sends: 8 at most in a classical frame (R362). -/
def dlcBytes (fdf : Bool) (dlc : Nat) : Nat :=
  if dlc ≤ 8 then dlc else if !fdf then 8
  else match dlc with
    | 9 => 12
    | 10 => 16
    | 11 => 20
    | 12 => 24
    | 13 => 32
    | 14 => 48
    | _ => 64

/-- An ID word: a base identifier stands in bits [10:0], with [28:11] zero (R359). -/
def canId (id : Word) : Word := if bit id 29 then id else id &&& 0xE00007FF#32

/-- The frame that an entry spells (R361). A remote frame carries no payload. -/
def canEntryFrame (x : Can) (e : Nat) : CanFrame :=
  let w := fun o => w32 (ofLe (getBytes x.mem (0x80 * e + o) 4))
  let id := canId (w 0)
  let dlc := fld (w 4) 0 4
  { id := id, dlc := BitVec.ofNat 4 dlc, brs := bit (w 4) 4, esi := false,
    data := if bit id 30 then [] else getBytes x.mem (0x80 * e + 16) (dlcBytes (bit id 31) dlc) }

/-- A new request takes the place of a pending one, or waits behind one in transmission (R363). -/
def canPlace (c : Fin 4) (r : CanReq) (s : State) : State :=
  let wired := s.can[c].reqs.any (fun y => y.entry = r.entry && y.onWire)
  modCan c (fun x =>
    let st := SMap.set 0#32 x.stat r.entry (canStat r.cyc 1 0 false false)
    if wired then { x with waiting := x.waiting.filter (fun y => y.entry ≠ r.entry) ++ [r], stat := st }
    else { x with reqs := x.reqs.filter (fun y => y.entry ≠ r.entry) ++ [r], stat := st }) s

/-- Whether an entry belongs to a non-vital partition. -/
def CanOwner.isNonvital : CanOwner → Bool
  | .nonvital _ => true
  | .vital _ => false

/-- The release of an entry's control word (R362): a cancel request, or a request with a copy of the entry. A request that
ends at once is its entry's latest: one still on the wire no longer has the status word (R365). With no triad that runs, no
non-vital request can be sent (R368). -/
def canRelease (c : Fin 4) (e : Nat) (w : Word) (owner : CanOwner) (s : State) : State :=
  if bit w 30 then
    let mark := fun (y : CanReq) => if y.entry = e then { y with cancel := true } else y
    modCan c (fun x => { x with reqs := x.reqs.map mark, waiting := x.waiting.map mark }) s
  else if bit w 31 then
    let f := canEntryFrame s.can[c] e
    let r : CanReq := { entry := e, frame := f, oneShot := bit w 29, cancel := false, onWire := false,
                        cyc := s.scn.cycle, owner := owner, enBy := none, kept := false, old := false }
    let fdf := bit f.id 31
    if (fdf && bit f.id 30) || (f.brs && !fdf) then
      let s := modCan c (fun x =>
        { x with reqs := (x.reqs.filter (fun y => y.entry ≠ e || y.onWire)).map (fun y =>
                   if y.entry = e then { y with old := true } else y),
                 waiting := x.waiting.filter (fun y => y.entry ≠ e) }) s
      canEnd c r 4 8 false false s
    else if canMute s.can[c] || (owner.isNonvital && !(fins 5).any (formed s)) then canEnd c r 7 0 false false s
    else canPlace c r s
  else s

/-! ### Writing a device place -/

/-- A store of the enabled bytes at a word-aligned offset from 0xC000_0000. `k` is a non-vital partition, whose CAN
entries and status slots act when the store is made (R362, R396). -/
def devWrite (k : Option NvId) (d : Dev) (o mask : Nat) (v : Word) (s : State) : State :=
  match d with
  | .ubSlot b _ => modUb b (fun x => { x with next := putMasked x.next (o % 0x1000000) mask v }) s
  | .ubMini b _ => modUb b (fun x => { x with next := putMasked x.next (o % 0x1000000) mask v }) s
  | .ubCtl b m => modUb b (fun x =>
      let next := putMasked x.next (o % 0x1000000) mask v
      { x with next := next, ctrl := setAssoc x.ctrl m (w32 (ofLe (getBytes next (o % 0x1000000) 4))) }) s
  | .can c e ofs =>
    let base := 0x80 * e
    let s := modCan c (fun x => { x with mem := putMasked x.mem (base + ofs / 4 * 4) mask v }) s
    if ofs / 4 = 2 then
      let w := w32 (ofLe (getBytes s.can[c].mem (base + 8) 4))
      match k with
      | some k => if s.scn.mode = .run then canRelease c e w (.nonvital k) s else s
      | none => modCan c (fun x => { x with ctl := setAssoc x.ctl e w }) s
    else s
  | .status r n ofs =>
    let base := 0x100000 * r.val + 0x20 * n
    let s := { s with hst := { s.hst with statMem := putMasked s.hst.statMem (base + ofs / 4 * 4) mask v } }
    if ofs / 4 = 4 then
      let w := w32 (ofLe (getBytes s.hst.statMem (base + 16) 4))
      match k with
      | some k => if bit w 31 then postStatus r n (8 + k.val) (w.setWidth 16) s else s
      | none => { s with hst := { s.hst with
          statCtl := s.hst.statCtl.filter (fun x => !(x.1 = r.val && x.2.1 = n)) ++ [(r.val, n, w)] } }
    else s
  | .mirror ofs => { s with rck := { s.rck with mirNext := putMasked s.rck.mirNext (ofs / 4 * 4) mask v } }

end Sys2Proof.Machine
end

