-- ==== Sys2Proof/Machine/HeelCore.lean ====
section
/-!
DEFINITION. Heel and the judging of words (R70 to R79): passes and their pages, the share of a bank's engine, and the
table of R78.
-/
namespace Sys2Proof.Machine

open Sys2Proof

/-- What R78 says of the three copies of one word. -/
inductive Judged where
  | fine
  | repair (bank : Lane)
  | noMajority
  deriving DecidableEq, Repr

/-- The table of R78 for three copies, each with its ECC verdict. -/
def judge3 {α : Type} [DecidableEq α] (ia ib ic : Bool) (a b c : α) : Judged :=
  if ia && ib && ic then
    if a = b ∧ b = c then .fine
    else if a = b then .repair 2
    else if a = c then .repair 1
    else if b = c then .repair 0
    else .noMajority
  else if !ia && ib && ic then (if b = c then .repair 0 else .noMajority)
  else if ia && !ib && ic then (if a = c then .repair 1 else .noMajority)
  else if ia && ib && !ic then (if a = b then .repair 2 else .noMajority)
  else .noMajority

/-- The verdict on the 64-bit word of the banks at word index `w` (offset 8 × w). -/
def judgeWord (s : State) (w : Nat) : Judged :=
  judge3 (intact s 0 (8 * w)) (intact s 1 (8 * w)) (intact s 2 (8 * w))
    (bankDword s 0 (8 * w)) (bankDword s 1 (8 * w)) (bankDword s 2 (8 * w))

/-- A lane other than the one given. -/
def otherLane (l : Lane) : Lane := if l = 0 then 1 else 0

/-- The bank that a repair copies from. -/
def thirdLane (a b : Lane) : Lane := if a ≠ 0 ∧ b ≠ 0 then 0 else if a ≠ 1 ∧ b ≠ 1 then 1 else 2

/-- The word of one bank rewritten from another (R78). -/
def repairWord (dst : Lane) (w : Nat) (s : State) : State :=
  bankStore dst (8 * w) (bankBytes s (otherLane dst) (8 * w) 8) s

/-- The word indices from `lo` to below `hi` (in words) that some bank lists or whose ECC fails in some bank: every
other word reads 0 and intact in all three banks. -/
def touched (s : State) (lo hi : Nat) : List Nat :=
  (fins 3).foldl (fun ws l =>
    let ws := s.banks[l].foldl (fun ws e => if lo ≤ e.1 / 8 ∧ e.1 / 8 < hi then insNat (e.1 / 8) ws else ws) ws
    s.ecc[l].foldl (fun ws w => if lo ≤ w ∧ w < hi then insNat w ws else ws) ws) []

/-- The first word index of a page of a partition's region, none without a region. -/
def pageWord (s : State) (p : PartId) (page : Nat) : Nat := match regionOf s p with
  | some (b, _) => b / 8 + 512 * page
  | none => 0

/-! ### The slice of the process image (R70) -/

/-- The keys of the signals of a partition's slice that some bank lists: internal signals, overlay values, and the
output signals that it owns (R164). -/
def sliceKeys (s : State) (p : PartId) : List Nat :=
  (fins 3).foldl (fun ks l =>
    let m := s.pim.img[l]
    let ks := m.ints[p].foldl (fun ks e => insNat e.1 ks) ks
    let ks := m.ovl[p].foldl (fun ks e => insNat e.1 ks) ks
    m.cur.foldl (fun ks e =>
      let g := Sig.ofKey e.1
      if g.area = .output ∧ ownerOf s (.signal g) = some p then insNat e.1 ks else ks) ks) []

/-- What a bank's slice holds of a signal; none is an overlay place without a value. -/
def sliceVal (s : State) (p : PartId) (l : Lane) (k : Nat) : Option Word :=
  match (Sig.ofKey k).area with
  | .internal => some (SMap.get 0#32 s.pim.img[l].ints[p] k)
  | .output => some (SMap.get 0#32 s.pim.img[l].cur k)
  | _ => SMap.get none s.pim.img[l].ovl[p] k

/-- A value into a bank's slice. -/
def slicePut (p : PartId) (l : Lane) (k : Nat) (v : Option Word) : State → State :=
  modImg l (fun m => match (Sig.ofKey k).area with
    | .internal => { m with ints := vupd m.ints p (fun x => SMap.set 0#32 x k (v.getD 0#32)) }
    | .output => { m with cur := SMap.set 0#32 m.cur k (v.getD 0#32) }
    | _ => { m with ovl := vupd m.ovl p (fun x => SMap.set none x k v) })

/-- The verdict of R78 on the NEXT copy of a boundary signal, a word of the system area (R164). -/
def nextJudge (s : State) (k : Nat) : Judged :=
  let ok := fun (l : Lane) => !s.sysEcc[l].contains (.image 0 k)
  let v := fun (l : Lane) => SMap.get 0#32 s.pim.img[l].cur k
  judge3 (ok 0) (ok 1) (ok 2) (v 0) (v 1) (v 2)

/-- The NEXT copy of a boundary signal in one bank rewritten from another bank. -/
def nextRepair (k : Nat) (b : Lane) (s : State) : State :=
  modImg b (fun m => { m with cur := SMap.set 0#32 m.cur k (SMap.get 0#32 s.pim.img[otherLane b].cur k) })
    { s with sysEcc := vupd s.sysEcc b (fun l => l.filter (· ≠ .image 0 k)) }

/-- The bank offset at which the slice holds a signal. -/
def sliceOfs (s : State) (p : PartId) (k : Nat) : Nat :=
  8 * pageWord s p (slicePage s p (Sig.ofKey k)) + slicePlace p (Sig.ofKey k)

/-- Whether a signal is one of a partition's slice: it is internal, an overlay value, or an output that it owns. -/
def inSlice (s : State) (p : PartId) (k : Nat) : Bool := match (Sig.ofKey k).area with
  | .boundary => false
  | .output => ownerOf s (.signal (Sig.ofKey k)) = some p
  | _ => true

/-! ### Words of a region -/

/-- The signals of a slice that stand in a 64-bit word of the banks. -/
def wordKeys (s : State) (p : PartId) (w : Nat) : List Nat :=
  (sliceKeys s p).filter (fun k => sliceOfs s p k / 8 = w)

/-- What a bank holds in a 64-bit word of a region: its bytes, and the signals of the slice that stand in it. -/
def regionVal (s : State) (p : PartId) (l : Lane) (w : Nat) : Dword × List (Option Word) :=
  (bankDword s l (8 * w), (wordKeys s p w).map (sliceVal s p l))

/-- The verdict of R78 on a 64-bit word of a region. -/
def judgeRegion (s : State) (p : PartId) (w : Nat) : Judged :=
  judge3 (intact s 0 (8 * w)) (intact s 1 (8 * w)) (intact s 2 (8 * w))
    (regionVal s p 0 w) (regionVal s p 1 w) (regionVal s p 2 w)

/-- One bank's word of a region rewritten from another bank: the bytes and the signals. -/
def repairRegion (p : PartId) (dst : Lane) (w : Nat) (s : State) : State :=
  forEach (wordKeys s p w) (fun k s => slicePut p dst k (sliceVal s p (otherLane dst) k) s) (repairWord dst w s)

/-- A byte of a bank as the units that read raw bytes find it: where a signal of a slice stands in a region, its value
(R70, R164, R168), else the byte. -/
def laneByte (s : State) (l : Lane) (a : Nat) : Byte :=
  let at_ := (fins 5).findSome? (fun p => match regionOf s p with
    | some (b, n) => if b ≤ a ∧ a < b + n then
        ((sliceKeys s p).find? (fun k => sliceOfs s p k / 4 = a / 4)).bind (sliceVal s p l) else none
    | none => none)
  match at_ with
  | some v => (v >>> (8 * (a % 4))).setWidth 8
  | none => bankByte s l a

/-- The words of a page that some bank lists, whose ECC fails in some bank, or in which a signal of the slice stands. -/
def pageWords (s : State) (p : PartId) (page : Nat) : List Nat :=
  let first := pageWord s p page
  (sliceKeys s p).foldl (fun ws k => if slicePage s p (Sig.ofKey k) = page then insNat (sliceOfs s p k / 8) ws else ws)
    (touched s first (first + 512))

/-! ### Pages -/

/-- The pages of a partition's region that hold a touched word or a signal of the slice. -/
def touchedPages (s : State) (p : PartId) : List Nat := match regionOf s p with
  | some (b, n) =>
    let ws := (touched s (b / 8) ((b + n) / 8)).foldl (fun ps w => insNat ((w - b / 8) / 512) ps) []
    (sliceKeys s p).foldl (fun ps k => insNat (slicePage s p (Sig.ofKey k)) ps) ws
  | none => []

/-- Whether every word of a page is intact in both healthy banks and the two copies are equal (R73). -/
def pageAgrees (s : State) (p : PartId) (odd : Lane) (page : Nat) : Bool :=
  let x := otherLane odd
  let y := thirdLane odd x
  (pageWords s p page).all (fun w =>
    intact s x (8 * w) && intact s y (8 * w) && regionVal s p x w = regionVal s p y w)

/-- The words of a page in which the odd bank needs a rewrite. -/
def pageNeeds (s : State) (p : PartId) (odd : Lane) (page : Nat) : List Nat :=
  (pageWords s p page).filter (fun w =>
    !intact s odd (8 * w) || regionVal s p odd w ≠ regionVal s p (otherLane odd) w)

/-- A page judged in a pass other than the final one (R73): rewritten if the healthy banks agree and it needs it, else
carried as unresolved. A rewrite enters the dirty-page log (R72) and the count of TRI_HEEL_FIX_n. -/
def judgePage (t : TriadId) (p : PartId) (odd : Lane) (page : Nat) (s : State) : State :=
  if pageAgrees s p odd page then
    let ws := pageNeeds s p odd page
    if ws.isEmpty then s
    else modHeel t (fun h => { h with fix := h.fix + 1 }) (forEach ws (repairRegion p odd) s)
  else modHeel t (fun h => { h with unres := insNat page h.unres }) s

/-- A partition is quiescent (R74, R80): its commit of kind 0x4 is released in this cycle, or it does not solve in it. -/
def quiescent (s : State) (p : PartId) : Bool :=
  s.parts[p].st = .ended || s.parts[p].st = .stopped || s.parts[p].st = .none || !solves s

/-- Heel starts for a lane found odd (R70). -/
def heelStart (t : TriadId) (l : Lane) (s : State) : State :=
  heelPump l (modHeel t (fun _ => { Heel.init with st := .waitEngine, bank := some l }) s)

/-- Whether the log of dirty pages has reached FINAL_PAGES (R74). -/
def heelFull (s : State) (t : TriadId) : Bool := s.tri.finalPagesAct.toNat ≤ s.triads[t].heel.dirty.length

/-- Whether the next catch-up pass starts at once when a pass ends (R74). -/
def heelDue (s : State) (t : TriadId) : Bool :=
  heelFull s t ||
    (!s.triads[t].heel.dirty.isEmpty && match s.triads[t].part with
      | some p => quiescent s p
      | none => true)

/-- A Heel that waits goes on to its next pass. -/
def heelGoOn (t : TriadId) (s : State) : State :=
  let h := s.triads[t].heel
  if h.st = .waitReserve then
    let s := modHeel t (fun h => { h with st := .waitEngine }) s
    match h.bank with
    | some b => heelPump b s
    | none => s
  else s

/-- A Heel that waits goes on when a write fills the log up to FINAL_PAGES (R74). The release of the partition's commit of
kind 0x4 lets it start whatever the log holds: there `heelGoOn` is called. -/
def heelKick (t : TriadId) (s : State) : State := if heelFull s t then heelGoOn t s else s

/-- The dirty pages that remain at a boundary: those of a catch-up pass that has not ended are among them (R75, log
entry 76). -/
def Heel.left (h : Heel) : List Nat := h.pages.foldl (fun l x => insNat x l) h.dirty

/-- A region is ready: the full pass is over, and few pages remain (R75). -/
def heelReady (s : State) (t : TriadId) : Bool :=
  let h := s.triads[t].heel
  h.st ≠ .none && decide (1 ≤ h.pass) && decide (h.left.length + h.unres.length ≤ s.tri.finalPagesAct.toNat)

/-- What the final pass does on the verdict over a word (R78, R79). The pass ends where a word stops the triad (R77). -/
def finalAct (t : TriadId) (p : PartId) (odd : Lane) (w : Nat) (s : State) : State :=
  if s.triads[t].mode = .stopped then s
  else match judgeRegion s p w with
  | .fine => s
  | .repair b =>
    let s := repairRegion p b w s
    if b = odd then s
    else nvEventFor Ev.heelCopyRepair (whoOf t) (w32 (256 * (b.val + 1) + match s.triads[t].cores[b] with
      | some c => c.val
      | none => 0)) 0#32 s
  | .noMajority => vitalStopsTriad Ev.noCopyMajority (w32 (256 * (odd.val + 1))) 0#32 t s

/-- The final pass (R74, R75): the dirty and unresolved pages, word by word, by the table of R78. A page counts in
TRI_HEEL_FIX_n if the odd bank was rewritten in it before a word stopped the triad. -/
def finalPass (t : TriadId) (p : PartId) (odd : Lane) (s : State) : State :=
  let h := s.triads[t].heel
  let pages := h.unres.foldl (fun l x => insNat x l) h.left
  let s := { s with tri := { s.tri with finalRan := true } }
  let s := forEach pages (fun page s =>
    if s.triads[t].mode = .stopped then s
    else
      let first := pageWord s p page
      let ws := pageWords s p page
      let reached := ws.takeWhile (fun w => judgeRegion s p w ≠ .noMajority)
      let s := if reached.any (fun w => judgeRegion s p w = .repair odd) then modHeel t (fun h => { h with fix := h.fix + 1 })
          s else s
      forEach ws (finalAct t p odd) (softDone (8 * first) (8 * (first + 512)) s)) s
  if s.triads[t].mode = .stopped then s else heelAbandon t s

end Sys2Proof.Machine
end

