-- ==== Sys2Proof/Machine/Cores.lean ====
section
/-!
DEFINITION. The execution of one instruction by a core: which core runs what, records of the write signature (R29 to
R33), retirement and commit points (R34 to R37, R126, R127), traps (R128, R132), partition entry (R102), the NMI
(R134), and what a non-vital partition does instead.
-/
namespace Sys2Proof.Machine

open Sys2Proof

/-- Whose instructions a core executes. -/
inductive Who where
  | vital (t : TriadId) (l : Lane) (p : PartId)
  | nonvital (k : NvId)
  deriving DecidableEq, Repr

/-- What surrounds a running core: its bank, the first bank offset and the bytes of its region or quota window, and
the words of its program area. -/
structure CoreCtx where
  who  : Who
  bank : Lane
  base : Nat
  size : Nat
  prog : Nat
  deriving DecidableEq, Repr

/-- Whether the partition of a core is vital. -/
def CoreCtx.vital (x : CoreCtx) : Bool := match x.who with
  | .vital _ _ _ => true
  | .nonvital _ => false

/-- The reader that a core's signal loads count as: its vital partition, or none (R169). -/
def CoreCtx.reader (x : CoreCtx) : Option PartId := match x.who with
  | .vital _ _ p => some p
  | .nonvital _ => none

/-- The bank that a quota names, none for BANK 0 (TRI_NVQ_ACT_k). -/
def quotaBank (q : Word) : Option Lane := match fld q 28 2 with
  | 1 => some 0
  | 2 => some 1
  | 3 => some 2
  | _ => none

/-- The core's surroundings while it executes instructions: a lane of a formed triad whose partition is solving, or an
unleashed core with a running non-vital partition and a quota. -/
def coreCtx (s : State) (c : CoreId) : Option CoreCtx :=
  if s.cores[c].run ≠ .running then none
  else match s.cores[c].st with
  | .lane => (laneOf s c).bind (fun tl =>
      (runningPart s tl.1).bind (fun p =>
        if s.parts[p].st = .solving then (partDesc s p).map (fun d =>
          { who := .vital tl.1 tl.2 p, bank := tl.2, base := d.baseMib * 1048576, size := d.sizeMib * 1048576,
            prog := d.progWords })
        else none))
  | .unleashed => s.cores[c].nv.bind (fun k =>
      if s.nvs[k].st = .running then
        (nvDesc s k).bind (fun d => (quotaBank s.tri.nvqAct[c]).map (fun b =>
          { who := .nonvital k, bank := b, base := fld s.tri.nvqAct[c] 0 12 * 1048576,
            size := fld s.tri.nvqAct[c] 16 12 * 1048576, prog := d.progWords }))
      else none)
  | _ => none

/-! ### Entry (R102, R84) -/

/-- The architectural state at partition entry (R102). What the core holds besides is kept. -/
def Core.enter (entry : Nat) (rootIb : Word) (k : Core) : Core :=
  { k with g := Vector.replicate 32 0#32, ib := rootIb, pc := BitVec.ofNat 22 entry, stack := [], count := 0,
           seq := 1#32, sig := 0#64, run := .running, out := none, svq := 0, closeMark := none, nmiSave := none,
           nmiCode := 0 }

/-- The ENTRY record, the first one fed (R31, R33). -/
def Core.feedEntry (p : PartId) (cycle : Nat) (k : Core) : Core :=
  Core.feed true 0 p.val (w32 cycle) (w32 (cycle / 2 ^ 32 % 65536)) k

/-- The core takes an NMI (R134): PC, IB and G1 to G31 are saved and PC takes the NMI entry; with entry 0 it returns at
once. -/
def Core.takeNmi (entry code : Nat) (k : Core) : Core :=
  if entry = 0 then k
  else { k with nmiSave := some (k.pc, k.ib, k.g), nmiCode := code, pc := BitVec.ofNat 22 entry }

/-! ### Non-vital partitions (R19, R156) -/

/-- The next non-vital partition of a core starts (R19, R156), or the core idles. -/
def nvStartNext (c : CoreId) (s : State) : State :=
  match s.cores[c].nvIdle with
  | [] => modCore c (fun k => { k with nv := none, run := .idle }) s
  | n :: rest =>
    let s := modNv n (fun x => { x with st := .running }) s
    match nvDesc s n with
    | some d => modCore c (fun k => { Core.enter d.entry d.rootIb k with nv := some n, nvSince := s.tb, nvIdle := rest }) s
    | none => modCore c (fun k => { k with nv := none, run := .idle, nvIdle := rest }) s

/-- A non-vital partition on a core ends in a state, and the next one starts. The CAN requests of one that stops end
NOT_SENT (R357). -/
def nvEnd (c : CoreId) (n : NvId) (st : NvSt) (s : State) : State :=
  let s := modNv n (fun x => { x with st := st, last := usSince s.cores[c].nvSince s.tb }) s
  nvStartNext c (if st = .stopped then canWithdraw (· = .nonvital n) s else s)

/-- A non-vital partition as the partition that an event concerns, in the numbering of RDB selector 5 (R385). -/
def nvWho (n : NvId) : Byte := BitVec.ofNat 8 (8 + n.val)

/-- A store that R20 refuses: the partition is stopped and NV_STORE_REFUSED is raised. -/
def nvRefuse (c : CoreId) (n : NvId) (s : State) : State :=
  let s := nvEventFor Ev.nvStoreRefused (nvWho n) (w32 c.val) (s.cores[c].pc.setWidth 32) s
  nvEnd c n .stopped s

/-- A trap of a non-vital partition (R132). -/
def nvTrap (c : CoreId) (n : NvId) (code : Nat) (addr : Word) (s : State) : State :=
  let pc := s.cores[c].pc
  let t := { s.tri with nvTrapValid := true, nvTrapCore := BitVec.ofNat 4 c.val, nvTrapPart := BitVec.ofNat 3 n.val,
                        nvTrapCode := BitVec.ofNat 8 code, nvTrapPc := pc, nvTrapAddr := addr,
                        nvTrapCyc := w32 s.scn.cycle }
  let s := if s.tri.nvTrapValid then s else { s with tri := t }
  nvEnd c n .stopped (nvEventFor Ev.nvTrap (nvWho n) (w32 c.val) (pc.setWidth 32) s)

/-! ### Traps and the frame of every instruction -/

/-- A trap (R128, R132): the faulting instruction does not retire. A vital core stops executing and sends a report. -/
def takeTrap (c : CoreId) (x : CoreCtx) (code : Nat) (addr : Word) (s : State) : State :=
  match x.who with
  | .vital _ _ _ => modCore c (fun k =>
      { k with run := .trapped, out := some (.trap { code := code, seq := k.seq, pc := k.pc, addr := addr }) }) s
  | .nonvital n => nvTrap c n code addr s

/-- The core address of a word of the program area (R539). -/
def fetchAddr (pc : BitVec 22) : Word := w32 (0x40000000 + 4 * pc.toNat)

/-- One instruction on a core: nothing if the core does not execute; ADDR_FAULT at a PC outside the program area
(R539); else `f`. -/
def onCore (c : CoreId) (f : CoreCtx → State → State) (s : State) : State :=
  match coreCtx s c with
  | none => s
  | some x =>
    if x.prog ≤ s.cores[c].pc.toNat then takeTrap c x Ev.addrFault (fetchAddr s.cores[c].pc) s else f x s

/-- An instruction that writes one register with a value of the core's registers and retires. -/
def regOp (c : CoreId) (d : Reg) (f : Core → Word) (s : State) : State :=
  onCore c (fun x => modCore c (fun k => Core.next x.vital (Core.setReg x.vital d (f k) k))) s

/-- An instruction that traps if `bad` gives a code and an address, and else writes one register and retires. -/
def trapOp (c : CoreId) (d : Reg) (bad : CoreCtx → State → Option (Nat × Word)) (f : CoreCtx → State → Word)
    (s : State) : State :=
  onCore c (fun x s => match bad x s with
    | some (code, addr) => takeTrap c x code addr s
    | none => modCore c (fun k => Core.next x.vital (Core.setReg x.vital d (f x s) k)) s) s

/-! ### Core addresses (R104, R105) -/

/-- Where an access falls: local SRAM, the own bank (region offset), a device place, or nowhere. -/
inductive Place where
  | sram (ofs : Nat)
  | bank (ofs : Nat)
  | dev (d : Dev) (ofs : Nat)
  | none
  deriving DecidableEq, Repr

/-- The place of a core address (R104). Pages in use stay accessible to a non-vital core (R92). -/
def placeOf (s : State) (c : CoreId) (x : CoreCtx) (store : Bool) (a : Nat) : Place :=
  if a < 0x40000 then .sram a
  else if 0x40000000 ≤ a ∧ a < 0x80000000 then
    let o := a - 0x40000000
    if o < x.size || (!x.vital && s.tri.nvPages[c].contains (o / 4096)) then .bank o else .none
  else if store && decide (0xC0000000 ≤ a) then
    match devOf s (a - 0xC0000000) with
    | some d => .dev d (a - 0xC0000000)
    | none => .none
  else .none

/-- `n` bytes that a load returns, little-endian (R104). -/
def loadPlace (s : State) (c : CoreId) (x : CoreCtx) (n : Nat) : Place → Word
  | .sram o => w32 (ofLe (getBytes s.cores[c].sram o n))
  | .bank o => w32 (ofLe (bankBytes s x.bank (x.base + o) n))
  | _ => 0#32

/-- Why a load of `n` bytes traps, with the code and the address (R105). -/
def loadBad (s : State) (c : CoreId) (x : CoreCtx) (n : Nat) (a : Word) : Option (Nat × Word) :=
  if a.toNat % n ≠ 0 then some (Ev.align, a)
  else match placeOf s c x false a.toNat with
  | .sram _ => none
  | .bank _ => none
  | _ => some (Ev.addrFault, a)

/-- The non-vital partition whose store of `n` bytes falls in the window range of R104 and outside its active quota window: it
is refused as R20 says (R91, log entry 122). -/
def outOfQuota (s : State) (c : CoreId) (x : CoreCtx) (n a : Nat) : Option NvId :=
  match x.who with
  | .vital _ _ _ => none
  | .nonvital k =>
    if a % n = 0 ∧ 0x40000000 ≤ a ∧ a < 0x80000000 ∧ placeOf s c x true a = .none then some k else none

/-- Why a store of `n` bytes traps (R105); `header` asks for the check of an SWI at IB. -/
def storeBad (s : State) (c : CoreId) (x : CoreCtx) (n : Nat) (header : Bool) (a : Word) : Option (Nat × Word) :=
  if a.toNat % n ≠ 0 then some (Ev.align, a)
  else match placeOf s c x true a.toNat with
  | .none => some (Ev.addrFault, a)
  | .bank o => if o < 4 * x.prog then some (Ev.codeWrite, a)
      else if header && decide ((a - s.cores[c].ib).toNat < 16) then some (Ev.headerWrite, a) else none
  | _ => if header && decide ((a - s.cores[c].ib).toNat < 16) then some (Ev.headerWrite, a) else none

/-- The byte-enable mask of a store of `n` bytes at an address (R32). -/
def storeMask (n a : Nat) : Nat := (2 ^ n - 1) <<< (a % 4)

/-- The aligned word of a store of `n` bytes, disabled bytes zero (R32). -/
def storeWord (n a : Nat) (v : Word) : Word := w32 ((v.toNat % 2 ^ (8 * n)) <<< (8 * (a % 4)))

/-- The low `n` bytes of a register, little-endian. -/
def regBytes (n : Nat) (v : Word) : List Byte := leBytes n v.toNat

/-- A page of a quota that a store needs (R92): in use already, or new within the limit; LIMITED and NVQ_LIMIT if not. -/
def quotaPage (c : CoreId) (page : Nat) (s : State) : Bool × State :=
  if s.tri.nvPages[c].contains page then (true, s)
  else if s.tri.nvPages[c].length < fld s.tri.nvqAct[c] 16 12 * 256 then
    (true, { s with tri := { s.tri with nvPages := vupd s.tri.nvPages c (insNat page) } })
  else
    let raised := s.tri.nvLimited[c]
    let s := { s with tri := { s.tri with nvLimited := vset s.tri.nvLimited c true } }
    (false, if raised then s else nvEvent Ev.nvqLimit (w32 c.val) 0#32 s)

/-- A store of `n` bytes that no check refuses: local SRAM and the own bank are written at once; a device place is a
commit point of kind 0x1 for a vital core (R35, R114, R127), and is written at once, or refused, for a non-vital one
(R20). -/
def storePlace (c : CoreId) (x : CoreCtx) (n : Nat) (a v : Word) (pl : Place) (s : State) : State :=
  let mask := storeMask n a.toNat
  let w := storeWord n a.toNat v
  match pl with
  | .sram o => modCore c (fun k =>
      let k := Core.feed x.vital 3 (0x10 + mask) (w32 (o / 4 * 4)) w { k with sram := putBytes k.sram o (regBytes n v) }
      Core.next x.vital k) s
  | .bank o =>
    match x.who with
    | .vital t _ _ =>
      modCore c (fun k => Core.next true (Core.feed true 3 (0x20 + mask) (w32 ((x.base + o) / 4 * 4)) w k))
        (heelKick t (bankStore x.bank (x.base + o) (regBytes n v) s))
    | .nonvital _ =>
      let (ok, s) := quotaPage c (o / 4096) s
      modCore c (Core.next false) (if ok then bankStore x.bank (x.base + o) (regBytes n v) s else s)
  | .dev d o => match x.who with
    | .vital _ _ _ => modCore c (fun k =>
        let sub := 0x50 + mask
        let ad := w32 (o / 4 * 4)
        let k := Core.feed true 3 sub ad w { k with pc := k.pc + 1#22 }
        Core.present 1 sub ad w { k with count := k.count + 1 }) s
    | .nonvital n => if devNv s d n then modCore c (Core.next false) (devWrite (some n) d (o / 4 * 4) mask w s)
        else nvRefuse c n s
  | .none => s

/-- A store instruction of `n` bytes at an address that the core's registers give (R91, R105). -/
def storeOp (c : CoreId) (n : Nat) (header : Bool) (addr : Core → Word) (val : Core → Word) (s : State) : State :=
  onCore c (fun x s =>
    let a := addr s.cores[c]
    match outOfQuota s c x n a.toNat with
    | some k => nvRefuse c k s
    | none =>
    match storeBad s c x n header a with
    | some (code, ad) => takeTrap c x code ad s
    | none => storePlace c x n a (val s.cores[c]) (placeOf s c x true a.toNat) s) s

/-- A load instruction of `n` bytes, the value extended by `ext` (R105, R108). -/
def loadOp (c : CoreId) (d : Reg) (n : Nat) (addr : Core → Word) (ext : Word → Word) (s : State) : State :=
  trapOp c d (fun x s => loadBad s c x n (addr s.cores[c]))
    (fun x s => ext (loadPlace s c x n (placeOf s c x false (addr s.cores[c]).toNat))) s

/-! ### Signals (R112 to R114) -/

/-- A signal load: SIG_RANGE outside the range, else the value that `f` makes of what the PIM returns. -/
def sigLoadOp (c : CoreId) (d : Reg) (g : Core → Sig) (f : CoreCtx → State → Sig → Word) (s : State) : State :=
  trapOp c d (fun _ s => if (g s.cores[c]).inRange then none else some (Ev.sigRange, w32 (g s.cores[c]).addr))
    (fun x s => f x s (g s.cores[c])) s

/-- The SUB byte of a signal store record: space 0x3, mask 0b0001, or space 0x4, mask 0b1111 (R113). -/
def Sig.sub (g : Sig) : Nat := if g.word then 0x4F else 0x31

/-- A signal store (R113, R114, R20): a commit point of kind 0x1 in the output and boundary areas, the lane's own bank
in the others, refused for a non-vital partition. -/
def sigStoreOp (c : CoreId) (g : Core → Sig) (val : Core → Word) (s : State) : State :=
  onCore c (fun x s =>
    let sg := g s.cores[c]
    let v := sg.norm (val s.cores[c])
    if !sg.inRange then takeTrap c x Ev.sigRange (w32 sg.addr) s
    else match x.who with
    | .nonvital n => nvRefuse c n s
    | .vital t l p =>
      if sg.area = .output ∨ sg.area = .boundary then
        modCore c (fun k =>
          let k := Core.feed true 3 sg.sub (w32 sg.addr) v { k with pc := k.pc + 1#22 }
          Core.present 1 sg.sub (w32 sg.addr) v { k with count := k.count + 1 }) s
      else modCore c (fun k => Core.next true (Core.feed true 3 sg.sub (w32 sg.addr) v k))
        (heelKick t (pimStore l p sg v s))) s

/-! ### The handling interval: RETN markers (R461) -/

/-- A lane's RETN marker reaches the voter (R461): two lanes end the handling of the NMI, and the interval if the NMI
was its own. A RETN that a lane still owes for an earlier NMI counts for that one. -/
def retnMark (t : TriadId) (l : Lane) (s : State) : State :=
  modHnd t (fun h =>
    if 0 < h.late[l] then { h with late := vupd h.late l (· - 1) }
    else match h.active with
    | none => h
    | some (_, own) =>
      let r := bitSet h.retn l.val true
      if (fins 3).countP (fun i => bit r i.val) < 2 then { h with retn := r }
      else
        let owed := vgen 3 (fun i => if bit r i.val || s.triads[t].cores[i].isNone then h.late[i] else h.late[i] + 1)
        { h with active := none, retn := 0#3, late := owed, isOpen := if own then false else h.isOpen,
                 taken := if own then false else h.taken }) s

end Sys2Proof.Machine
end

