-- ==== Sys2Proof/Machine/Operands.lean ====
section
/-!
DEFINITION. The operand forms of the Itrel formats (R106, R108, R112): immediates, effective addresses, branch
targets, signal names.
-/
namespace Sys2Proof.Machine

open Sys2Proof

/-- A 16-bit immediate sign-extended (R108). -/
def sx16 (i : BitVec 16) : Word := i.signExtend 32

/-- A 16-bit immediate zero-extended (R108). -/
def zx16 (i : BitVec 16) : Word := i.setWidth 32

/-- The address Ga + IMM of a load or store (R108). -/
def addrGa (ga : Reg) (imm : BitVec 16) (k : Core) : Word := k.reg ga + sx16 imm

/-- The address IB + IMM of LWI and SWI, IMM zero-extended (R108). -/
def addrIb (imm : BitVec 16) (k : Core) : Word := k.ib + zx16 imm

/-- A branch target PC + OFFSET, modulo 2^22 (R108, R539). -/
def branchPc (ofs : BitVec 16) (k : Core) : BitVec 22 := k.pc + ofs.signExtend 22

/-- The shift amount Gb[4:0] (R109). -/
def shiftOf (v : Word) : Nat := v.toNat % 32

/-- The word signal of a W-format address. -/
def sigW (addr : BitVec 19) (_ : Core) : Sig := ⟨true, addr.toNat⟩

/-- The Boolean signal of an S-format address. -/
def sigB (addr : BitVec 23) (_ : Core) : Sig := ⟨false, addr.toNat⟩

/-- The signal of an indexed address in Ga, checked over all 32 bits (R112). -/
def sigX (word : Bool) (ga : Reg) (k : Core) : Sig := ⟨word, (k.reg ga).toNat⟩

/-- A register target of CALLR and JMPR above 22 bits (R110). -/
def farTarget (v : Word) : Bool := decide (4194304 ≤ v.toNat)

end Sys2Proof.Machine
end

