-- ==== Sys2Proof/Machine/Flags.lean ====
section
/-!
DEFINITION. The Itrel instructions set no flags (R111). What stands in their place: saturation (R111) and comparisons
that write 0 or 1 (R109).
-/
namespace Sys2Proof.Machine

open Sys2Proof

/-- sat32: a signed result limited to 32 bits (R111). -/
def sat32 (x : Int) : Word :=
  if x < -2147483648 then 0x80000000#32 else if 2147483647 < x then 0x7FFFFFFF#32 else BitVec.ofInt 32 x

/-- An unsigned result saturating at 0xFFFF_FFFF (R109). -/
def satU (x : Nat) : Word := if x < 4294967296 then w32 x else 0xFFFFFFFF#32

/-- Signed less than. -/
def ltS (a b : Word) : Bool := decide (a.toInt < b.toInt)

/-- Unsigned less than. -/
def ltU (a b : Word) : Bool := decide (a.toNat < b.toNat)

/-- Signed division truncated toward zero; −2,147,483,648 by −1 saturates (R111). -/
def divS (a b : Word) : Word := sat32 (a.toInt.tdiv b.toInt)

/-- The remainder that belongs to `divS` (R109, R111). -/
def remS (a b : Word) : Word := if a = 0x80000000#32 ∧ b = 0xFFFFFFFF#32 then 0#32 else a - b * divS a b

end Sys2Proof.Machine
end

