-- ==== Sys2Proof/Machine/Alu.lean ====
section
/-!
DEFINITION. Arithmetic and logic between registers (R109, R111).
-/
namespace Sys2Proof.Machine

open Sys2Proof

/-- A register-to-register operation: Gd := f Ga Gb. -/
def aluOp (c : CoreId) (gd ga gb : Reg) (f : Word → Word → Word) (s : State) : State :=
  regOp c gd (fun k => f (k.reg ga) (k.reg gb)) s

/-- A division: DIV_ZERO on a zero divisor (R111). -/
def divOp (c : CoreId) (gd ga gb : Reg) (f : Word → Word → Word) (s : State) : State :=
  trapOp c gd (fun _ s => if s.cores[c].reg gb = 0#32 then some (Ev.divZero, 0#32) else none)
    (fun _ s => f (s.cores[c].reg ga) (s.cores[c].reg gb)) s

/-- ADD: Gd := Ga + Gb modulo 2^32 (R109). -/
def execAdd (c : CoreId) (gd ga gb : Reg) (s : State) : Host.Outcome State Fault Refusal :=
  .next (aluOp c gd ga gb (fun a b => a + b) s)

/-- SUB: Gd := Ga − Gb modulo 2^32 (R109). -/
def execSub (c : CoreId) (gd ga gb : Reg) (s : State) : Host.Outcome State Fault Refusal :=
  .next (aluOp c gd ga gb (fun a b => a - b) s)

/-- ADDS: Saturating signed addition (R109). -/
def execAdds (c : CoreId) (gd ga gb : Reg) (s : State) : Host.Outcome State Fault Refusal :=
  .next (aluOp c gd ga gb (fun a b => sat32 (a.toInt + b.toInt)) s)

/-- SUBS: Saturating signed subtraction (R109). -/
def execSubs (c : CoreId) (gd ga gb : Reg) (s : State) : Host.Outcome State Fault Refusal :=
  .next (aluOp c gd ga gb (fun a b => sat32 (a.toInt - b.toInt)) s)

/-- ADDUS: Saturating unsigned addition (R109). -/
def execAddus (c : CoreId) (gd ga gb : Reg) (s : State) : Host.Outcome State Fault Refusal :=
  .next (aluOp c gd ga gb (fun a b => satU (a.toNat + b.toNat)) s)

/-- SUBUS: Saturating unsigned subtraction (R109). -/
def execSubus (c : CoreId) (gd ga gb : Reg) (s : State) : Host.Outcome State Fault Refusal :=
  .next (aluOp c gd ga gb (fun a b => w32 (a.toNat - b.toNat)) s)

/-- MUL: The low 32 bits of the product (R109). -/
def execMul (c : CoreId) (gd ga gb : Reg) (s : State) : Host.Outcome State Fault Refusal :=
  .next (aluOp c gd ga gb (fun a b => a * b) s)

/-- MULS: Saturating signed product (R109). -/
def execMuls (c : CoreId) (gd ga gb : Reg) (s : State) : Host.Outcome State Fault Refusal :=
  .next (aluOp c gd ga gb (fun a b => sat32 (a.toInt * b.toInt)) s)

/-- MULH: The high 32 bits of the signed 64-bit product (R109). -/
def execMulh (c : CoreId) (gd ga gb : Reg) (s : State) : Host.Outcome State Fault Refusal :=
  .next (aluOp c gd ga gb (fun a b => BitVec.ofInt 32 (a.toInt * b.toInt / 4294967296)) s)

/-- DIV: Signed division truncated toward zero, with DIV_ZERO on a zero divisor (R109, R111). -/
def execDiv (c : CoreId) (gd ga gb : Reg) (s : State) : Host.Outcome State Fault Refusal :=
  .next (divOp c gd ga gb (fun a b => divS a b) s)

/-- DIVU: Unsigned division, with DIV_ZERO on a zero divisor (R109, R111). -/
def execDivu (c : CoreId) (gd ga gb : Reg) (s : State) : Host.Outcome State Fault Refusal :=
  .next (divOp c gd ga gb (fun a b => w32 (a.toNat / b.toNat)) s)

/-- REM: The remainder of DIV, with DIV_ZERO on a zero divisor (R109, R111). -/
def execRem (c : CoreId) (gd ga gb : Reg) (s : State) : Host.Outcome State Fault Refusal :=
  .next (divOp c gd ga gb (fun a b => remS a b) s)

/-- REMU: Unsigned remainder, with DIV_ZERO on a zero divisor (R109, R111). -/
def execRemu (c : CoreId) (gd ga gb : Reg) (s : State) : Host.Outcome State Fault Refusal :=
  .next (divOp c gd ga gb (fun a b => w32 (a.toNat % b.toNat)) s)

/-- MIN: Signed minimum (R109). -/
def execMin (c : CoreId) (gd ga gb : Reg) (s : State) : Host.Outcome State Fault Refusal :=
  .next (aluOp c gd ga gb (fun a b => if ltS b a then b else a) s)

/-- MAX: Signed maximum (R109). -/
def execMax (c : CoreId) (gd ga gb : Reg) (s : State) : Host.Outcome State Fault Refusal :=
  .next (aluOp c gd ga gb (fun a b => if ltS a b then b else a) s)

/-- MINU: Unsigned minimum (R109). -/
def execMinu (c : CoreId) (gd ga gb : Reg) (s : State) : Host.Outcome State Fault Refusal :=
  .next (aluOp c gd ga gb (fun a b => if ltU b a then b else a) s)

/-- MAXU: Unsigned maximum (R109). -/
def execMaxu (c : CoreId) (gd ga gb : Reg) (s : State) : Host.Outcome State Fault Refusal :=
  .next (aluOp c gd ga gb (fun a b => if ltU a b then b else a) s)

/-- ABSS: sat32 of the absolute value (R109). -/
def execAbss (c : CoreId) (gd ga : Reg) (s : State) : Host.Outcome State Fault Refusal :=
  .next (aluOp c gd ga 0 (fun a _ => sat32 (Int.ofNat a.toInt.natAbs)) s)

/-- AND: Bitwise AND (R109). -/
def execAnd (c : CoreId) (gd ga gb : Reg) (s : State) : Host.Outcome State Fault Refusal :=
  .next (aluOp c gd ga gb (fun a b => a &&& b) s)

/-- OR: Bitwise OR (R109). -/
def execOr (c : CoreId) (gd ga gb : Reg) (s : State) : Host.Outcome State Fault Refusal :=
  .next (aluOp c gd ga gb (fun a b => a ||| b) s)

/-- XOR: Bitwise XOR (R109). -/
def execXor (c : CoreId) (gd ga gb : Reg) (s : State) : Host.Outcome State Fault Refusal :=
  .next (aluOp c gd ga gb (fun a b => a ^^^ b) s)

/-- ANDN: Ga AND NOT Gb (R109). -/
def execAndn (c : CoreId) (gd ga gb : Reg) (s : State) : Host.Outcome State Fault Refusal :=
  .next (aluOp c gd ga gb (fun a b => a &&& ~~~b) s)

/-- ORN: Ga OR NOT Gb (R109). -/
def execOrn (c : CoreId) (gd ga gb : Reg) (s : State) : Host.Outcome State Fault Refusal :=
  .next (aluOp c gd ga gb (fun a b => a ||| ~~~b) s)

/-- BNOT: 1 if Ga = 0, else 0 (R109). -/
def execBnot (c : CoreId) (gd ga : Reg) (s : State) : Host.Outcome State Fault Refusal :=
  .next (aluOp c gd ga 0 (fun a _ => b2w (a = 0#32)) s)

/-- SLL: Logical left shift by Gb[4:0] (R109). -/
def execSll (c : CoreId) (gd ga gb : Reg) (s : State) : Host.Outcome State Fault Refusal :=
  .next (aluOp c gd ga gb (fun a b => a <<< shiftOf b) s)

/-- SRL: Logical right shift by Gb[4:0] (R109). -/
def execSrl (c : CoreId) (gd ga gb : Reg) (s : State) : Host.Outcome State Fault Refusal :=
  .next (aluOp c gd ga gb (fun a b => a >>> shiftOf b) s)

/-- SRA: Arithmetic right shift by Gb[4:0] (R109). -/
def execSra (c : CoreId) (gd ga gb : Reg) (s : State) : Host.Outcome State Fault Refusal :=
  .next (aluOp c gd ga gb (fun a b => a.sshiftRight (shiftOf b)) s)

/-- SLLI: Logical left shift by the amount (R109). -/
def execSlli (c : CoreId) (gd ga : Reg) (n : Fin 32) (s : State) : Host.Outcome State Fault Refusal :=
  .next (aluOp c gd ga 0 (fun a _ => a <<< n.val) s)

/-- SRLI: Logical right shift by the amount (R109). -/
def execSrli (c : CoreId) (gd ga : Reg) (n : Fin 32) (s : State) : Host.Outcome State Fault Refusal :=
  .next (aluOp c gd ga 0 (fun a _ => a >>> n.val) s)

/-- SRAI: Arithmetic right shift by the amount (R109). -/
def execSrai (c : CoreId) (gd ga : Reg) (n : Fin 32) (s : State) : Host.Outcome State Fault Refusal :=
  .next (aluOp c gd ga 0 (fun a _ => a.sshiftRight n.val) s)

/-- SEQ: 1 if Ga = Gb (R109). -/
def execSeq (c : CoreId) (gd ga gb : Reg) (s : State) : Host.Outcome State Fault Refusal :=
  .next (aluOp c gd ga gb (fun a b => b2w (a = b)) s)

/-- SNE: 1 if Ga ≠ Gb (R109). -/
def execSne (c : CoreId) (gd ga gb : Reg) (s : State) : Host.Outcome State Fault Refusal :=
  .next (aluOp c gd ga gb (fun a b => b2w (a ≠ b)) s)

/-- SLT: Signed less than (R109). -/
def execSlt (c : CoreId) (gd ga gb : Reg) (s : State) : Host.Outcome State Fault Refusal :=
  .next (aluOp c gd ga gb (fun a b => b2w (ltS a b)) s)

/-- SLTU: Unsigned less than (R109). -/
def execSltu (c : CoreId) (gd ga gb : Reg) (s : State) : Host.Outcome State Fault Refusal :=
  .next (aluOp c gd ga gb (fun a b => b2w (ltU a b)) s)

/-- SLE: Signed less or equal (R109). -/
def execSle (c : CoreId) (gd ga gb : Reg) (s : State) : Host.Outcome State Fault Refusal :=
  .next (aluOp c gd ga gb (fun a b => b2w (!ltS b a)) s)

/-- SLEU: Unsigned less or equal (R109). -/
def execSleu (c : CoreId) (gd ga gb : Reg) (s : State) : Host.Outcome State Fault Refusal :=
  .next (aluOp c gd ga gb (fun a b => b2w (!ltU b a)) s)

end Sys2Proof.Machine
end

