-- ==== Sys2Proof/Machine/AluImm.lean ====
section
/-!
DEFINITION. Arithmetic and logic with an immediate (R108), and branches (R108, R539).
-/
namespace Sys2Proof.Machine

open Sys2Proof

/-- ADDI: Gd := Ga + IMM modulo 2^32 (R108). -/
def execAddi (c : CoreId) (gd ga : Reg) (imm : BitVec 16) (s : State) : Host.Outcome State Fault Refusal :=
  .next (regOp c gd (fun k => k.reg ga + sx16 imm) s)

/-- ADDIS: Gd := sat32(Ga + IMM) (R108). -/
def execAddis (c : CoreId) (gd ga : Reg) (imm : BitVec 16) (s : State) : Host.Outcome State Fault Refusal :=
  .next (regOp c gd (fun k => sat32 ((k.reg ga).toInt + (sx16 imm).toInt)) s)

/-- ANDI: AND with the zero-extended immediate (R108). -/
def execAndi (c : CoreId) (gd ga : Reg) (imm : BitVec 16) (s : State) : Host.Outcome State Fault Refusal :=
  .next (regOp c gd (fun k => k.reg ga &&& zx16 imm) s)

/-- ORI: OR with the zero-extended immediate (R108). -/
def execOri (c : CoreId) (gd ga : Reg) (imm : BitVec 16) (s : State) : Host.Outcome State Fault Refusal :=
  .next (regOp c gd (fun k => k.reg ga ||| zx16 imm) s)

/-- XORI: XOR with the zero-extended immediate (R108). -/
def execXori (c : CoreId) (gd ga : Reg) (imm : BitVec 16) (s : State) : Host.Outcome State Fault Refusal :=
  .next (regOp c gd (fun k => k.reg ga ^^^ zx16 imm) s)

/-- SLTI: 1 if Ga < IMM signed (R108). -/
def execSlti (c : CoreId) (gd ga : Reg) (imm : BitVec 16) (s : State) : Host.Outcome State Fault Refusal :=
  .next (regOp c gd (fun k => b2w (ltS (k.reg ga) (sx16 imm))) s)

/-- SLTIU: 1 if Ga < IMM unsigned, after sign extension (R108). -/
def execSltiu (c : CoreId) (gd ga : Reg) (imm : BitVec 16) (s : State) : Host.Outcome State Fault Refusal :=
  .next (regOp c gd (fun k => b2w (ltU (k.reg ga) (sx16 imm))) s)

/-- LUI: Gd := IMM << 16 (R108). -/
def execLui (c : CoreId) (gd : Reg) (imm : BitVec 16) (s : State) : Host.Outcome State Fault Refusal :=
  .next (regOp c gd (fun _ => zx16 imm <<< 16) s)

/-- A branch: PC := PC + OFFSET if the condition holds, else PC + 1 (R108, R539). -/
def branchOp (c : CoreId) (ofs : BitVec 16) (cond : Core → Bool) (s : State) : State :=
  onCore c (fun x => modCore c (fun k =>
    if cond k then Core.retire x.vital { k with pc := branchPc ofs k } else Core.next x.vital k)) s

/-- BEQ: branch if Ga = Gb (R108). -/
def execBeq (c : CoreId) (ga gb : Reg) (offset : BitVec 16) (s : State) : Host.Outcome State Fault Refusal :=
  .next (branchOp c offset (fun k => k.reg ga = k.reg gb) s)

/-- BNE: branch if Ga ≠ Gb (R108). -/
def execBne (c : CoreId) (ga gb : Reg) (offset : BitVec 16) (s : State) : Host.Outcome State Fault Refusal :=
  .next (branchOp c offset (fun k => k.reg ga ≠ k.reg gb) s)

/-- BLT: branch if Ga < Gb signed (R108). -/
def execBlt (c : CoreId) (ga gb : Reg) (offset : BitVec 16) (s : State) : Host.Outcome State Fault Refusal :=
  .next (branchOp c offset (fun k => ltS (k.reg ga) (k.reg gb)) s)

/-- BGE: branch if Ga ≥ Gb signed (R108). -/
def execBge (c : CoreId) (ga gb : Reg) (offset : BitVec 16) (s : State) : Host.Outcome State Fault Refusal :=
  .next (branchOp c offset (fun k => !ltS (k.reg ga) (k.reg gb)) s)

/-- BLTU: branch if Ga < Gb unsigned (R108). -/
def execBltu (c : CoreId) (ga gb : Reg) (offset : BitVec 16) (s : State) : Host.Outcome State Fault Refusal :=
  .next (branchOp c offset (fun k => ltU (k.reg ga) (k.reg gb)) s)

/-- BGEU: branch if Ga ≥ Gb unsigned (R108). -/
def execBgeu (c : CoreId) (ga gb : Reg) (offset : BitVec 16) (s : State) : Host.Outcome State Fault Refusal :=
  .next (branchOp c offset (fun k => !ltU (k.reg ga) (k.reg gb)) s)

end Sys2Proof.Machine
end

