-- ==== Sys2Proof/Machine/SvyJudge.lean ====
section
/-!
DEFINITION. The Survey unit's tables (R213 to R223) and the judging of the requests of a round by one lane (R218 to
R236).
-/
namespace Sys2Proof.Machine

open Sys2Proof

/-! ### Reading the block of R214 -/

/-- Word `i` of a table block. -/
def tw (tbl : List Word) (i : Nat) : Word := tbl.getD i 0#32

/-- ELEMS, ROUTES and POOL. -/
def tblElems (tbl : List Word) : Nat := (tw tbl 1).toNat
def tblRoutes (tbl : List Word) : Nat := (tw tbl 2).toNat
def tblPool (tbl : List Word) : Nat := (tw tbl 3).toNat

/-- Word `k` of element `e` (R215). -/
def elWord (tbl : List Word) (e k : Nat) : Word := tw tbl (8 + 8 * e + k)

/-- The type of an element (R216). -/
def elType (tbl : List Word) (e : Nat) : Nat := fld (elWord tbl e 0) 0 8

/-- Word `k` of the header of route `r` (R221). -/
def rtWord (tbl : List Word) (r k : Nat) : Word := tw tbl (8 + 8 * tblElems tbl + 8 * r + k)

/-- Pool entry `i` (R222). -/
def poolWord (tbl : List Word) (i : Nat) : Word := tw tbl (8 + 8 * tblElems tbl + 8 * tblRoutes tbl + i)

/-- The fields of a route header (R221). -/
def rtEntry (tbl : List Word) (r : Nat) : Nat := fld (rtWord tbl r 0) 0 16
def rtExit (tbl : List Word) (r : Nat) : Nat := fld (rtWord tbl r 0) 16 16
def rtList (tbl : List Word) (r : Nat) : Nat := (rtWord tbl r 1).toNat
def rtPathLen (tbl : List Word) (r : Nat) : Nat := fld (rtWord tbl r 2) 0 16
def rtFlankLen (tbl : List Word) (r : Nat) : Nat := fld (rtWord tbl r 2) 16 8
def rtOvlCount (tbl : List Word) (r : Nat) : Nat := fld (rtWord tbl r 2) 24 8
def rtOvlLen (tbl : List Word) (r v : Nat) : Nat := if v < 4 then fld (rtWord tbl r 3) (8 * v) 8 else 0
def rtAppLen (tbl : List Word) (r : Nat) : Nat := fld (rtWord tbl r 4) 0 8
def rtValid (tbl : List Word) (r : Nat) : Bool := bit (rtWord tbl r 4) 8
def rtTapp (tbl : List Word) (r : Nat) : Nat := fld (rtWord tbl r 4) 16 16

/-- `n` pool entries from an index. -/
def poolList (tbl : List Word) (i n : Nat) : List Word := (List.range n).map (fun k => poolWord tbl (i + k))

/-- The lists of a route (R222): path, flank, overlap variant `v`, approach. -/
def rtPath (tbl : List Word) (r : Nat) : List Word := poolList tbl (rtList tbl r) (rtPathLen tbl r)
def rtFlank (tbl : List Word) (r : Nat) : List Word :=
  poolList tbl (rtList tbl r + rtPathLen tbl r) (rtFlankLen tbl r)
def rtOvlAt (tbl : List Word) (r v : Nat) : Nat :=
  rtList tbl r + rtPathLen tbl r + rtFlankLen tbl r + ((List.range v).map (rtOvlLen tbl r)).sum
def rtOvl (tbl : List Word) (r v : Nat) : List Word := poolList tbl (rtOvlAt tbl r v) (rtOvlLen tbl r v)
def rtApp (tbl : List Word) (r : Nat) : List Word :=
  poolList tbl (rtOvlAt tbl r (rtOvlCount tbl r)) (rtAppLen tbl r)

/-- The fields of a list entry (R222). -/
def enPos (e : Word) : Nat := fld e 28 2
def enOcc (e : Word) : Bool := bit e 27
def enPort (e : Word) : Nat := fld e 16 2
/-- TRACK, POINT, CROSSING and LEVEL_CROSSING: the types with a section (R229 step 6). -/
def isSection (t : Nat) : Bool := t = 1 || t = 2 || t = 3 || t = 7

/-- DOOR_GROUP and GAP_FILLER: attached elements (R216). -/
def isAttached (t : Nat) : Bool := t = 5 || t = 6

/-! ### Table checks (R223) -/

/-- The ports of a type (R216). -/
def typePorts (t : Nat) : Nat := match t with
  | 1 => 2
  | 2 => 3
  | 3 => 4
  | 4 => 2
  | 5 => 1
  | 6 => 1
  | 7 => 2
  | _ => 0

/-- Whether a type may appear in a list of a kind (R216). -/
def kindAllowed (t kind : Nat) : Bool := match kind with
  | 0 => decide (1 ≤ t ∧ t ≤ 7)
  | 1 => t = 2 || t = 4
  | 2 => isSection t
  | _ => isSection t

/-- A neighbour word is well formed for port `p` of element `a` (R223 check 2, R215). -/
def nbOk (tbl : List Word) (a p : Nat) : Bool :=
  let t := elType tbl a
  let w := elWord tbl a (1 + p)
  let b := fld w 0 16
  let q := fld w 16 2
  if !bit w 31 then !(isAttached t && p = 0)
  else if fld w 18 13 ≠ 0 || decide (typePorts t ≤ p) || decide (tblElems tbl ≤ b) then false
  else if isAttached t then q = 0 && elType tbl b = 1
  else
    let back := elWord tbl b (1 + q)
    !isAttached (elType tbl b) && elType tbl b ≠ 0 && bit back 31 && fld back 0 16 = a && fld back 16 2 = p

/-- A Boolean state signal reference lies in the input, output, boundary or host request area (R217). -/
def sigRefOk (w : Word) (second : Nat) : Bool :=
  let g : Sig := ⟨false, fld w 0 23 + second⟩
  fld w 23 8 = 0 && g.inRange && g.area ≠ .internal

/-- A lock word reference lies in the output or boundary area (R217). -/
def lockRefOk (w : Word) : Bool :=
  let g : Sig := ⟨true, fld w 0 19⟩
  fld w 19 12 = 0 && g.inRange && (g.area = .output || g.area = .boundary)

/-- Checks 2 and 3 of R223, and the types and reserved fields of R215 and R216, for one element. Of an unused element only
the references that it marks VALID are checked, and that none of its neighbour words names an attached element. -/
def elemOk (tbl : List Word) (a : Nat) : Bool :=
  let t := elType tbl a
  if t = 0 then
    (List.range 4).all (fun p => !bit (elWord tbl a (1 + p)) 31 || !isAttached (elType tbl (fld (elWord tbl a (1 + p)) 0 16))) &&
    (List.range 2).all (fun i => !bit (elWord tbl a (5 + i)) 31 ||
      (List.range (i + 1)).all (fun k => sigRefOk (elWord tbl a (5 + i)) k)) &&
    (!bit (elWord tbl a 7) 31 || lockRefOk (elWord tbl a 7))
  else
    decide (t ≤ 7) && fld (elWord tbl a 0) 8 24 = 0 && (List.range 4).all (nbOk tbl a) &&
    (!bit (elWord tbl a 5) 31 || sigRefOk (elWord tbl a 5) 0) &&
    (if bit (elWord tbl a 6) 31 then (t = 2 || t = 7) && sigRefOk (elWord tbl a 6) 0 && sigRefOk (elWord tbl a 6) 1
     else true) &&
    bit (elWord tbl a 7) 31 && lockRefOk (elWord tbl a 7)

/-- The port by which a list entry leaves its element (R222): a point from its toe by its POS, else by the toe; ends
and lines by the other port of the pair. -/
def leavePort (tbl : List Word) (e : Word) : Nat :=
  if elType tbl (enEl e) = 2 then (if enPort e = 0 then enPos e else 0) else enPort e ^^^ 1

/-- Consecutive entries are neighbours linked by the later entry's PORT, and POS agrees with the ports (R223). -/
def chainOk (tbl : List Word) : List Word → Bool
  | [] => true
  | [e] => elType tbl (enEl e) ≠ 2 || enPort e = 0 || enPort e = enPos e
  | e :: f :: l =>
    let w := elWord tbl (enEl e) (1 + leavePort tbl e)
    (elType tbl (enEl e) ≠ 2 || enPort e = 0 || enPort e = enPos e) &&
    decide (leavePort tbl e < typePorts (elType tbl (enEl e))) && bit w 31 && fld w 0 16 = enEl f &&
    fld w 16 2 = enPort f && chainOk tbl (f :: l)

/-- An entry of a list of a kind: kind, type, POS, OCC_OK, PORT and reserved bits (R222, R223 checks 4 and 5). -/
def entryOk (tbl : List Word) (kind : Nat) (e : Word) : Bool :=
  let t := elType tbl (enEl e)
  enKind e = kind && decide (enEl e < tblElems tbl) && kindAllowed t kind &&
  (if t = 2 then enPos e = 1 || enPos e = 2 else enPos e = 0) &&
  (kind = 0 || kind = 2 || (!enOcc e && enPort e = 0)) && fld e 18 9 = 0

/-- Check 5 of R223 for a route, whether VALID or not: its lengths and its reserved fields (R221). -/
def routeForm (tbl : List Word) (r : Nat) : Bool :=
  decide (2 ≤ rtPathLen tbl r ∧ rtPathLen tbl r ≤ 256 ∧ rtFlankLen tbl r ≤ 32 ∧ rtOvlCount tbl r ≤ 4 ∧
    rtAppLen tbl r ≤ 16) &&
  (List.range 4).all (fun v => if v < rtOvlCount tbl r then decide (1 ≤ rtOvlLen tbl r v ∧ rtOvlLen tbl r v ≤ 16)
    else rtOvlLen tbl r v = 0) &&
  fld (rtWord tbl r 4) 9 7 = 0 && (List.range 3).all (fun k => rtWord tbl r (5 + k) = 0#32)

/-- Check 5 of R223 for a route's list entries in the pool, whether it is VALID or not: their reserved fields (R222). -/
def routeReserved (tbl : List Word) (r : Nat) : Bool :=
  let n := rtOvlAt tbl r (rtOvlCount tbl r) + rtAppLen tbl r
  (poolList tbl (rtList tbl r) (min n (tblPool tbl) - rtList tbl r)).all (fun e => fld e 18 9 = 0)

/-- Checks 4 and 5 of R223 for one route. -/
def routeOk (tbl : List Word) (r : Nat) : Bool :=
  routeForm tbl r && routeReserved tbl r &&
  (!rtValid tbl r ||
    let path := rtPath tbl r
    let through := path.filter (fun e => !isAttached (elType tbl (enEl e)))
    let last := (through.getLast?).toList
    decide (rtOvlAt tbl r (rtOvlCount tbl r) + rtAppLen tbl r ≤ tblPool tbl) &&
    path.all (entryOk tbl 0) && (rtFlank tbl r).all (entryOk tbl 1) && (rtApp tbl r).all (entryOk tbl 3) &&
    (List.range (rtOvlCount tbl r)).all (fun v => (rtOvl tbl r v).all (entryOk tbl 2)) &&
    elType tbl (rtEntry tbl r) = 4 && (elType tbl (rtExit tbl r) = 4 || elType tbl (rtExit tbl r) = 1) &&
    (path.head?).map enEl = some (rtEntry tbl r) && (path.getLast?).map enEl = some (rtExit tbl r) &&
    (path.head?).map enPort = some 0 && chainOk tbl through &&
    path.all (fun e => !isAttached (elType tbl (enEl e)) ||
      through.any (fun x => enEl x = fld (elWord tbl (enEl e) 1) 0 16)) &&
    (List.range (rtOvlCount tbl r)).all (fun v => chainOk tbl (last ++ rtOvl tbl r v)))

/-- The tables pass every check of R223. An image without Chart and route sections has an empty block, which is not
checked. -/
def tablesOk (tbl : List Word) : Bool :=
  tbl.isEmpty ||
  (tw tbl 0 = 1#32 && decide (1 ≤ tblElems tbl ∧ tblElems tbl ≤ 65536 ∧ 1 ≤ tblRoutes tbl ∧ tblRoutes tbl ≤ 32768 ∧
      1 ≤ tblPool tbl ∧ tblPool tbl ≤ 2097152) &&
    (List.range 3).all (fun k => tw tbl (5 + k) = 0#32) &&
    (List.range (tblElems tbl)).all (elemOk tbl) && (List.range (tblRoutes tbl)).all (routeOk tbl))

/-! ### State signals and lock words (R218 to R220) -/

/-- How a state signal stands: permissive, not, or not only because of its quality word (R218). -/
inductive Perm where
  | yes | no | quality
  deriving DecidableEq, Repr

/-- A state signal reference, plus an offset for SIG_B+1, as one lane reads it (R217, R218). -/
def permissive (s : State) (l : Lane) (ref : Word) (ofs : Nat) : Perm :=
  let g : Sig := ⟨false, fld ref 0 23 + ofs⟩
  let q := pimQuality s l none g
  let ageMax := fld s.svy.cfgAct 24 8
  if !bit ref 31 then .no
  else if pimLoad s l none g = 0#32 then .no
  else if bit q 6 then .yes
  else if bit q 0 || bit q 1 || bit q 2 || bit q 3 || bit q 4 then .quality
  else if ageMax ≠ 0 ∧ ageMax < qAge q then .quality else .yes

/-- The lock word of an element, none if it is not usable (R220). -/
def lockOf (s : State) (l : Lane) (tbl : List Word) (e : Nat) : Option Word :=
  let g : Sig := ⟨true, fld (elWord tbl e 7) 0 19⟩
  let q := pimQuality s l none g
  if !bit q 6 && (bit q 0 || bit q 3) then none else some (pimLoad s l none g)

/-- A POINT detected in POS (R232 step 4). -/
def detected (s : State) (l : Lane) (tbl : List Word) (e pos : Nat) : Perm :=
  let ref := elWord tbl e 6
  let mine := if pos = 1 then 0 else 1
  match permissive s l ref mine with
  | .yes => if pimLoad s l none ⟨false, fld ref 0 23 + (1 - mine)⟩ = 0#32 then .yes else .no
  | x => x

/-- The reason codes of R235 used in judging. -/
def Rs.quality : Nat := 0x14

/-- A failed state signal's reason: QUALITY in place of its own if only the quality word fails (R218). -/
def reasonOf (p : Perm) (own : Nat) : Option Nat := match p with
  | .yes => none
  | .no => some own
  | .quality => some Rs.quality

/-- A failure: the reason, the entry, the route holding the lock. -/
structure Failed where
  reason : Nat
  entry : Word
  other : Option Nat
  deriving DecidableEq, Repr

/-- The fields of a lock word (R219). -/
def lkLocked (w : Word) : Bool := bit w 31
def lkOvl (w : Word) : Bool := bit w 30
def lkFlank (w : Word) : Bool := bit w 29
def lkApproach (w : Word) : Bool := bit w 28
def lkBlocked (w : Word) : Bool := bit w 27
def lkPos (w : Word) : Nat := fld w 24 2
def lkRoute (w : Word) : Nat := fld w 0 15

/-- The set conditions for one entry (R229). -/
def setEntry (s : State) (l : Lane) (tbl : List Word) (r : Nat) (e : Word) : Option Failed :=
  let t := elType tbl (enEl e)
  match lockOf s l tbl (enEl e) with
  | none => some ⟨Rs.quality, e, none⟩
  | some w =>
    if lkBlocked w then some ⟨0x06, e, none⟩
    else if enKind e = 1 then
      if t = 2 && (lkLocked w || lkFlank w) && lkPos w ≠ enPos e then some ⟨0x07, e, none⟩
      else if t = 4 && lkLocked w && lkRoute w ≠ r then some ⟨0x07, e, none⟩ else none
    else if lkLocked w && lkRoute w ≠ r then some ⟨0x03, e, some (lkRoute w)⟩
    else if t = 2 && lkFlank w && lkPos w ≠ enPos e then some ⟨0x04, e, none⟩
    else if isSection t && !enOcc e then
      (reasonOf (permissive s l (elWord tbl (enEl e) 5) 0) 0x05).map (fun c => ⟨c, e, none⟩)
    else none

/-- The set conditions of a list: the first failure, in list order. -/
def setConds (s : State) (l : Lane) (tbl : List Word) (r : Nat) (es : List Word) : Option Failed :=
  es.findSome? (setEntry s l tbl r)

/-- The clear conditions for one entry (R232). -/
def clearEntry (s : State) (l : Lane) (tbl : List Word) (r : Nat) (e : Word) : Option Failed :=
  let el := enEl e
  let t := elType tbl el
  let sigA := permissive s l (elWord tbl el 5) 0
  let fail := fun (c : Nat) => some (⟨c, e, none⟩ : Failed)
  let step3 := fun (w : Word) =>
    if enKind e ≠ 1 then
      (if lkLocked w && lkRoute w = r && lkOvl w = decide (enKind e = 2) then none else some 0x0D)
    else if t = 2 then (if (lkLocked w || lkFlank w) && lkPos w = enPos e then none else some 0x07)
    else reasonOf sigA 0x07
  let step4 := if t = 2 then reasonOf (detected s l tbl el (enPos e)) 0x0C else none
  let step5 := if enKind e ≠ 1 && isSection t && !enOcc e then reasonOf sigA 0x05 else none
  let barrier := match permissive s l (elWord tbl el 6) 0, permissive s l (elWord tbl el 6) 1 with
    | .yes, p => p
    | .no, _ => .no
    | .quality, .no => .no
    | .quality, _ => .quality
  let step6 := if t = 5 then reasonOf sigA 0x09 else if t = 6 then reasonOf sigA 0x0A
    else if t = 7 then reasonOf barrier 0x0B else none
  match lockOf s l tbl el with
  | none => fail Rs.quality
  | some w =>
    if lkBlocked w then fail 0x06
    else (((step3 w).orElse (fun _ => step4)).orElse (fun _ => step5)).orElse (fun _ => step6) |>.bind fail

/-- Whether every entry of an overlap variant shows LOCKED and OVL with the route (R232, R233). -/
def ovlHeld (s : State) (l : Lane) (tbl : List Word) (r v : Nat) : Bool :=
  (rtOvl tbl r v).all (fun e => match lockOf s l tbl (enEl e) with
    | some w => lkLocked w && lkOvl w && lkRoute w = r
    | none => false)

/-! ### Results (R234, R235) -/

/-- A result that reports a failure. -/
def svyFail (verdict ovl : Nat) (f : Failed) : SvyOut :=
  { svyOut verdict f.reason with ovl := ovl, entry := some f.entry, other := f.other }

/-- A request refused with BAD_REQUEST (R228). -/
def badRequest (tbl : List Word) (q : SvyReq) : Bool :=
  let ovl := fld q.w0 23 3
  fld q.w0 30 2 = 3 || decide (tblRoutes tbl ≤ q.route) || !rtValid tbl q.route || ovl = 4 || ovl = 5 || ovl = 6 ||
  (decide (ovl ≤ 3) && decide (rtOvlCount tbl q.route ≤ ovl)) || fld q.w0 15 8 ≠ 0 || fld q.w1 16 14 ≠ 0

/-- The entries of a locking set, MOVE set on every POINT that is not detected in POS (R236). -/
def markMove (s : State) (l : Lane) (tbl : List Word) (es : List Word) : List Word :=
  es.map (fun e => if elType tbl (enEl e) = 2 && detected s l tbl (enEl e) (enPos e) ≠ .yes then bitSet e 26 true
    else e)

/-- Whether a list has an entry with MOVE. -/
def anyMove (es : List Word) : Bool := es.any (fun e => bit e 26)

/-- The overlap entries of a chosen variant. -/
def ovlEntries (tbl : List Word) (r : Nat) (v : Option Nat) : List Word := match v with
  | some v => rtOvl tbl r v
  | none => []

/-- The judging of a SET, or a CHECK with CLEAR 0, against the state at B (R229, R230): a refusal with the given
verdict, or the overlap variants that pass. -/
def againstB (s : State) (l : Lane) (tbl : List Word) (q : SvyReq) (verdict : Nat) : SvyOut ⊕ List Nat :=
  let r := q.route
  let ovl := fld q.w0 23 3
  match setConds s l tbl r (rtPath tbl r ++ rtFlank tbl r) with
  | some f => .inl (svyFail verdict 7 f)
  | none =>
    let vs := if ovl ≤ 3 then [ovl] else List.range (rtOvlCount tbl r)
    let ok := vs.filter (fun v => (setConds s l tbl r (rtOvl tbl r v)).isNone)
    if 0 < rtOvlCount tbl r ∧ ok = [] then
      match vs.head?.bind (fun v => setConds s l tbl r (rtOvl tbl r v)) with
      | some f => .inl (svyFail verdict (vs.headD 7) ⟨0x08, f.entry, none⟩)
      | none => .inl (svyOut verdict 0x08)
    else .inr ok

/-- A CHECK with CLEAR 0 (R229, R230). -/
def judgeCheck (s : State) (l : Lane) (tbl : List Word) (q : SvyReq) : SvyOut :=
  match againstB s l tbl q 5 with
  | .inl o => o
  | .inr ok =>
    let r := q.route
    let es := rtPath tbl r ++ rtFlank tbl r ++ ovlEntries tbl r ok.head?
    { svyOut 4 0 with ovl := ok.headD 7, move := anyMove (markMove s l tbl es) }

/-- A CHECK with CLEAR 1 (R232). -/
def judgeClear (s : State) (l : Lane) (tbl : List Word) (q : SvyReq) : SvyOut :=
  let r := q.route
  let ovl := fld q.w0 23 3
  let v := if ovl ≤ 3 then some ovl else (List.range (rtOvlCount tbl r)).find? (ovlHeld s l tbl r)
  if 0 < rtOvlCount tbl r ∧ v = none then
    match (rtOvl tbl r 0).head? with
    | some e => svyFail 5 7 ⟨0x08, e, none⟩
    | none => svyOut 5 0x08
  else
    let es := rtPath tbl r ++ rtFlank tbl r ++ ovlEntries tbl r v
    match es.findSome? (clearEntry s l tbl r) with
    | some f => svyFail 5 (v.getD 7) f
    | none => { svyOut 4 0 with ovl := v.getD 7 }

/-- A CANCEL (R233). -/
def judgeCancel (s : State) (l : Lane) (tbl : List Word) (q : SvyReq) : SvyOut :=
  let r := q.route
  let path := rtPath tbl r
  let entry := path.headD 0#32
  let occupied := path.tail.findSome? (fun e =>
    if isSection (elType tbl (enEl e)) && !enOcc e then
      (reasonOf (permissive s l (elWord tbl (enEl e) 5) 0) 0x0F).map (fun c => (⟨c, e, none⟩ : Failed))
    else none)
  let near := (rtApp tbl r).findSome? (fun e =>
    (reasonOf (permissive s l (elWord tbl (enEl e) 5) 0) 0x0E).map (fun c => (⟨c, e, none⟩ : Failed)))
  match lockOf s l tbl (rtEntry tbl r) with
  | none => svyFail 1 7 ⟨Rs.quality, entry, none⟩
  | some w =>
    if !(lkLocked w && lkRoute w = r) then svyFail 1 7 ⟨0x02, entry, none⟩
    else match occupied with
    | some f => svyFail 1 7 f
    | none =>
      match (if lkApproach w && !bit q.w1 31 then near else none) with
      | some f => { svyFail 3 7 f with tapp := rtTapp tbl r * 100 }
      | none =>
        let v := (List.range (rtOvlCount tbl r)).find? (ovlHeld s l tbl r)
        { svyOut 2 0 with ovl := v.getD 7, lset := some (path ++ rtFlank tbl r ++ ovlEntries tbl r v) }

/-! ### Claims and the round (R230, R231) -/

/-- A claim: the element, whether it is a flank claim, its POS, the route that holds it. -/
structure Claim where
  el : Nat
  flank : Bool
  pos : Nat
  route : Nat
  deriving DecidableEq, Repr

/-- Whether an entry clashes with a claim on the same element (R231). -/
def clashes (tbl : List Word) (e : Word) (c : Claim) : Bool :=
  c.el = enEl e &&
  (if c.flank then
    (if enKind e = 1 then c.pos ≠ enPos e else !(elType tbl (enEl e) = 2 && c.pos = enPos e))
   else if enKind e = 1 then !(elType tbl (enEl e) = 2 && c.pos = enPos e) else true)

/-- The first clash of a list: the entry and the route that holds the claim. -/
def clashOf (tbl : List Word) (claims : List Claim) (es : List Word) : Option (Word × Nat) :=
  es.findSome? (fun e => (claims.find? (clashes tbl e)).map (fun c => (e, c.route)))

/-- A refusal for a clash. -/
def clashOut (ovl : Nat) (x : Word × Nat) : SvyOut :=
  { svyOut 1 0x10 with ovl := ovl, entry := some x.1, other := some x.2 }

/-- One SET of the round against the claims placed so far: its result and the claims after it (R230). -/
def judgeSet (s : State) (l : Lane) (tbl : List Word) (claims : List Claim) (granted : List Nat) (q : SvyReq) :
    SvyOut × List Claim × List Nat :=
  let r := q.route
  match againstB s l tbl q 1 with
  | .inl o => (o, claims, granted)
  | .inr ok =>
    if r ∈ granted then ({ svyOut 1 0x11 with other := some r }, claims, granted)
    else
      let pf := rtPath tbl r ++ rtFlank tbl r
      match clashOf tbl claims pf with
      | some x => (clashOut 7 x, claims, granted)
      | none =>
        let v := ok.find? (fun v => (clashOf tbl claims (rtOvl tbl r v)).isNone)
        match v, ok.head?.bind (fun v => clashOf tbl claims (rtOvl tbl r v)) with
        | none, some x => (clashOut (ok.headD 7) x, claims, granted)
        | v, _ =>
          let es := pf ++ ovlEntries tbl r v
          let ls := markMove s l tbl es
          let new := es.map (fun e => (⟨enEl e, enKind e = 1, enPos e, r⟩ : Claim))
          ({ svyOut 0 0 with ovl := v.getD 7, move := anyMove ls, lset := some ls }, claims ++ new, granted ++ [r])

/-- Whether a SET comes before another in round order (R230). -/
def roundBefore (a b : SvyReq) : Bool :=
  let pa := fld a.w0 26 4
  let pb := fld b.w0 26 4
  if pa ≠ pb then decide (pb < pa)
  else if a.route ≠ b.route then decide (a.route < b.route)
  else if a.triad ≠ b.triad then decide (a.triad.val < b.triad.val) else decide (a.index < b.index)

/-- A SET in its place in round order. -/
def insSet (q : SvyReq) : List SvyReq → List SvyReq
  | [] => [q]
  | x :: l => if roundBefore q x then q :: x :: l else x :: insSet q l

/-- The results of the SETs of a round, in round order. -/
def judgeSets (s : State) (l : Lane) (tbl : List Word) (qs : List SvyReq) : List (SvyReq × SvyOut) :=
  let go := qs.foldl (fun (acc : List (SvyReq × SvyOut) × List Claim × List Nat) q =>
    let o := judgeSet s l tbl acc.2.1 acc.2.2 q
    (acc.1 ++ [(q, o.1)], o.2.1, o.2.2)) ([], [], [])
  go.1

/-- The result of one request before locking sets are placed. -/
def judgeReq (s : State) (l : Lane) (tbl : List Word) (sets : List (SvyReq × SvyOut)) (q : SvyReq) : SvyOut :=
  if badRequest tbl q then svyOut 1 1
  else match fld q.w0 30 2 with
  | 0 => if bit q.w1 30 then judgeClear s l tbl q else judgeCheck s l tbl q
  | 1 => match sets.find? (fun x => x.1 = q) with
    | some x => x.2
    | none => svyOut 1 1
  | _ => judgeCancel s l tbl q

/-- What one lane presents for a request: the words, the locking set with its region offset, and whether the set did
not fit (R236). -/
structure SvyAns where
  words : Vector Word 8
  lset : List Word
  ofs : Nat
  full : Bool
  deriving DecidableEq, Repr

/-- The locking sets of a triad's results placed one after another in its Survey area (R236). -/
def placeSets (ofs len : Nat) : List (SvyReq × SvyOut) → List (SvyReq × SvyAns)
  | [] => []
  | (q, o) :: rest => match o.lset with
    | none => (q, ⟨o.words q 0, [], 0, false⟩) :: placeSets ofs len rest
    | some ls =>
      if ls.length ≤ len then
        (q, ⟨o.words q ofs, ls, ofs, false⟩) :: placeSets (ofs + 4 * ls.length) (len - ls.length) rest
      else
        let o' : SvyOut := { svyOut 1 0x12 with ovl := o.ovl }
        (q, ⟨o'.words q 0, [], 0, true⟩) :: placeSets ofs len rest

/-- Every result of the round as one lane judges it from its bank (R237). -/
def judgeRound (s : State) (l : Lane) : List (SvyReq × SvyAns) :=
  let tbl := s.svy.table[l]
  let qs := roundReqs s
  let sets := (qs.filter (fun q => !badRequest tbl q && fld q.w0 30 2 = 1)).foldl (fun a q => insSet q a) []
  let rs := judgeSets s l tbl sets
  (fins 5).flatMap (fun t =>
    let mine := (qs.filter (fun q => q.triad = t)).map (fun q => (q, judgeReq s l tbl rs q))
    match s.triads[t].part.bind (partDesc s) with
    | some d => placeSets d.svyOfs d.svyLen mine
    | none => placeSets 0 0 mine)

end Sys2Proof.Machine
end

