-- ==== Sys2Proof/Machine/SvyCore.lean ====
section
/-!
DEFINITION. The Survey unit at work: request queues and their closing (R225, R226), rounds (R227), the vote on results
(R237 to R239), and the instructions SVQ and SVW (R123 to R125).
-/
namespace Sys2Proof.Machine

open Sys2Proof

/-- What a lane's voted or own answer writes to a bank: the locking set, into the partition's Survey area (R236, R237). -/
def svyPut (banks : List Lane) (t : TriadId) (a : SvyAns) (s : State) : State :=
  match (svyTakes s t).bind (regionOf s) with
  | some (b, _) =>
    if a.lset.isEmpty then s
    else forEach banks (fun l => bankFill l (b + a.ofs) (a.lset.flatMap (fun w => leBytes 4 w.toNat))) s
  | none => s

/-- A result on which two lanes agree (R237, R240): a differing copy is rewritten, the result is present in all three
banks, and SVW returns. -/
def svyRelease (t : TriadId) (index : Nat) (a : SvyAns) (s : State) : State :=
  let s := svyPut [0, 1, 2] t a s
  let s := match svyTakes s t with
    | some p => if a.full && !s.svy.queues[t].areaFull then
        nvEventFor Ev.svyAreaFull (partWho p) (w32 t.val) (w32 (svyRoute s t index))
          (modSvy (fun v => { v with queues := vupd v.queues t (fun q => { q with areaFull := true }) }) s)
      else s
    | none => s
  svyReturn t index a.words (heelKick t s)

/-- SVY_CAP holds the first SVY_LANE_ODD or SVY_FAILED (R238, R247). -/
def svyCapture (code : Nat) (t : TriadId) (index route : Nat) (lane : Nat) (s : State) : State :=
  if s.svy.capValid then s
  else modSvy (fun v =>
    { v with capValid := true, capEvent := BitVec.ofNat 8 code, capTriad := BitVec.ofNat 3 t.val,
             capLane := BitVec.ofNat 2 lane, capRoute := BitVec.ofNat 15 route, capIndex := BitVec.ofNat 15 index,
             capCyc := w32 s.scn.cycle }) s

/-- The unit fails (R238, R239): SVY_FAILED for each triad whose partition has USE. -/
def svyFailUnit (t : TriadId) (index route : Nat) (s : State) : State :=
  if s.svy.failed then s
  else
    let s := svyCapture Ev.svyFailed t index route 0 s
    let s := svyFaultAll (modSvy (fun v => { v with failed := true }) s)
    forEach (fins 5) (fun n s => match s.triads[n].part with
      | some p => if s.parts[p].svyUse then vitalKeeps Ev.svyFailed (w32 n.val) (w32 route) n s else s
      | none => s) s

/-- What the lanes that count have presented for a request. -/
def svyPresOf (s : State) (t : TriadId) (index : Nat) : List SvyPres :=
  s.svy.pres.filter (fun x => x.triad = t && x.index = index)

/-- Two presentations agree (R237). -/
def svyMatch (a b : SvyPres) : Bool := a.words = b.words && a.lset = b.lset

/-- A Survey lane is odd: excluded until the next START (R238). A pair whose two presentations for some request differ
then fails. -/
def svyLaneOdd (l : Lane) (t : TriadId) (index : Nat) (s : State) : State :=
  let route := svyRoute s t index
  let s := svyCapture Ev.svyLaneOdd t index route (l.val + 1) s
  let s := modSvy (fun v => { v with odd := some l, pres := v.pres.filter (fun x => x.lane ≠ l) }) s
  let s := nvEventFor Ev.svyLaneOdd (whoOf t) (w32 t.val) (w32 route) s
  match (roundReqs s).find? (fun q => !svyReleased s q.triad q.index && match svyPresOf s q.triad q.index with
      | [a, b] => !svyMatch a b
      | _ => false) with
  | some q => svyFailUnit q.triad q.index q.route s
  | none => s

/-- A released request word enters the queue (R123). -/
def svyAppend (t : TriadId) (v : Word) (s : State) : State :=
  modSvy (fun x => { x with queues := vupd x.queues t (fun q => { q with words := q.words ++ [v] }) }) s

/-- Close marks of two lanes with the same queue length close the queue (R226). -/
def svyMarks (t : TriadId) (s : State) : State :=
  let marks := (fins 3).filterMap (fun l => s.triads[t].cores[l].bind (fun c => s.cores[c].closeMark))
  if marks.any (fun m => decide (2 ≤ marks.countP (fun x => x = m))) then svyClose t 1 s else s

/-! ### Instructions -/

/-- Whether the queue is full for a lane that has queued `n` words: at its quota, or closed and every word released
(R123, R225, R226). -/
def svyFull (s : State) (t : TriadId) (n : Nat) : Bool :=
  let q := s.svy.queues[t]
  decide (2 * q.quotaAct.toNat ≤ n) || (q.closeBy ≠ 0 && decide (q.words.length ≤ n))

/-- SVQ: Ga becomes the next word of the request queue, Gd its index; a commit point of kind 0x1 (R123, R125). On a
TRV-10, SURVEY_ABSENT comes before what a non-vital partition meets: a choice of the model (log entry 100). -/
def execSvq (c : CoreId) (gd ga : Reg) (s : State) : Host.Outcome State Fault Refusal :=
  .next (onCore c (fun x s =>
    if !s.variant.svy then takeTrap c x Ev.surveyAbsent 0#32 s
    else match x.who with
    | .nonvital n => nvRefuse c n s
    | .vital t _ _ =>
      if svyFull s t s.cores[c].svq then takeTrap c x Ev.surveyRequest 0#32 s
      else modCore c (fun k =>
        let idx := w32 k.svq
        let v := k.reg ga
        let k := Core.feed true 3 0x6F idx v (Core.setReg true gd idx { k with svq := k.svq + 1, pc := k.pc + 1#22 })
        Core.present 1 0x6F idx v { k with count := k.count + 1 }) s) s)

/-- The close mark of a lane's first SVW of the cycle, before the SVW is judged (R226). -/
def svyMark (c : CoreId) (t : TriadId) (s : State) : State :=
  if s.cores[c].closeMark.isSome then s
  else svyMarks t (modCore c (fun k => { k with closeMark := some k.svq }) s)

/-- SVW: waits for the voted result of the request at index Ga and gives its word IMM (R124, R125). On a TRV-10,
SURVEY_ABSENT comes before the PRIV of a non-vital partition: a choice of the model (log entry 100). -/
def execSvw (c : CoreId) (gd ga : Reg) (imm : BitVec 16) (s : State) : Host.Outcome State Fault Refusal :=
  .next (onCore c (fun x s =>
    if !s.variant.svy then takeTrap c x Ev.surveyAbsent 0#32 s
    else match x.who with
    | .nonvital _ => takeTrap c x Ev.priv 0#32 s
    | .vital t _ _ =>
      let s := svyMark c t s
      let i := (s.cores[c].reg ga).toNat
      if 7 < imm.toNat || i % 2 ≠ 0 || s.cores[c].svq ≤ i + 1 ||
          (s.svy.queues[t].closeBy ≠ 0 && decide (s.svy.queues[t].closeLen ≤ i + 1)) then takeTrap c x Ev.surveyRequest 0#32 s
      else match s.svy.done.find? (fun r => r.triad = t && r.index = i) with
      | some r => modCore c (fun k => Core.next true (Core.setReg true gd (r.words.toList.getD imm.toNat 0#32) k)) s
      | none => modCore c (fun k => { k with run := .waitSvw gd i imm.toNat }) s) s)

/-! ### The vote -/

/-- LAG in ticks (SVY_CFG_ACT). -/
def svyLag (s : State) : Nat := fld s.svy.cfgAct 0 8 * 100

/-- The lane waited for after a release differs or is late (R238): with three lanes it is odd; where another lane is odd
already, the two left are a pair, and the unit fails. -/
def svyNotAgreed (l : Lane) (t : TriadId) (index : Nat) (s : State) : State :=
  if s.svy.odd.isSome then svyFailUnit t index (svyRoute s t index) s else svyLaneOdd l t index s

/-- The vote after a presentation `a` of a lane (R237, R238). -/
def svyVote (a : SvyPres) (ans : SvyAns) (s : State) : State :=
  let t := a.triad
  let i := a.index
  let pres := svyPresOf s t i
  let route := svyRoute s t i
  match s.svy.agreedAt.find? (fun x => x.1 = t && x.2.1 = i) with
  | some (_, _, at_) =>
    if (pres.filter (fun y => y.lane ≠ a.lane)).all (svyMatch a) && decide (s.tb ≤ at_ + svyLag s) then s
    else svyNotAgreed a.lane t i s
  | none =>
    match pres with
    | [x, y] =>
      if s.svy.odd.isSome then
        if svyMatch x y && decide (y.stamp ≤ x.stamp + svyLag s) then svyTryFinish (svyRelease t i ans s)
        else svyFailUnit t i route s
      else if svyMatch x y then svyTryFinish (svyRelease t i ans s) else s
    | [x, y, z] =>
      if y.stamp + svyLag s < z.stamp then svyFailUnit t i route s
      else if svyMatch x z then svyTryFinish (svyLaneOdd y.lane t i (svyRelease t i ans s))
      else if svyMatch y z then svyTryFinish (svyLaneOdd x.lane t i (svyRelease t i ans s))
      else svyFailUnit t i route s
    | _ => s

/-- SURVEY_RESULT (R237, R238): lane `l` judges a request of the round from its bank, writes its result and locking set
into that bank, and presents them. A set that comes after the vote stands in the bank already. -/
def execSurveyResult (l : Lane) (t : TriadId) (index : Nat) (agree : Bool) (s : State) :
    Host.Outcome State Fault Refusal :=
  .next (
    if s.svy.round < 2 || s.svy.failed || s.svy.odd = some l || (svyPresOf s t index).any (fun x => x.lane = l) then s
    else match (judgeRound s l).find? (fun x => x.1.triad = t && x.1.index = index) with
    | none => s
    | some (q, ans) =>
      if !agree then svyFailUnit t index q.route s
      else
        let a : SvyPres := { lane := l, triad := t, index := index, words := ans.words, lset := ans.lset, stamp := s.tb }
        let voted := svyReleased s t index
        let s := if voted then s else heelKick t (svyPut [l] t ans s)
        svyVote a ans (modSvy (fun v => { v with pres := v.pres ++ [a] }) s))

/-- SURVEY_LAG_EXPIRY (R237, R238): the lag window of a request ends without the lane waited for. -/
def execSurveyLagExpiry (t : TriadId) (index : Nat) (s : State) : Host.Outcome State Fault Refusal :=
  .next (
    let pres := svyPresOf s t index
    let route := svyRoute s t index
    if s.svy.failed then s
    else match s.svy.agreedAt.find? (fun x => x.1 = t && x.2.1 = index) with
    | some (_, _, at_) =>
      match (fins 3).find? (fun l => s.svy.odd ≠ some l && !pres.any (fun x => x.lane = l)) with
      | some l => if pres.isEmpty then s else svyNotAgreed l t index (advanceTo (at_ + svyLag s) s)
      | none => s
    | none =>
      match pres, s.svy.odd with
      | [_, y], none => svyFailUnit t index route (advanceTo (y.stamp + svyLag s) s)
      | [x], some _ => svyFailUnit t index route (advanceTo (x.stamp + svyLag s) s)
      | _, _ => s)

/-- SURVEY_CLOSE_AT (R226): CLOSE_AT closes every queue that is still open, before AGREE_END or after it. -/
def execSurveyCloseAt (s : State) : Host.Outcome State Fault Refusal :=
  .next (
    let at_ := fld s.svy.cfgAct 8 16
    if at_ = 0 || !s.variant.svy || !s.scn.mode.bounded || s.scn.cycle = 0 || decide (2 ≤ s.svy.round) then s
    else forEach (fins 5) (fun t s =>
      if s.svy.queues[t].closeBy ≠ 0 then s
      else svyClose t 3 (nvEventFor Ev.svyClosedLate (whoOf t) (w32 t.val) 0#32 s)) (advanceTo (s.scn.bTb + at_ * 10000) s))

end Sys2Proof.Machine
end

