-- ==== Sys2Proof/Machine/Emit.lean ====
section
/-!
DEFINITION. The end of a Solve (R142, R144): the hand-over of output values (R55, R262, R267), the equaliser's copy
(R416, R417), the start of check jobs (R453), and the state word of the door loop application (R298, R299).
-/
namespace Sys2Proof.Machine

open Sys2Proof

/-! ### The door loop application -/

/-- The Boolean input signal of IN_n in the door loop application (log entry 15). -/
def dlaIn (n : Nat) : Sig := ⟨false, n⟩

/-- The reset pulse of the door loop application (log entry 15). -/
def dlaPulse : Sig := ⟨false, 48⟩

/-- Whether a quality bit of an input is set as the application reads it. -/
def dlaQual (s : State) (n mask : Nat) : Bool := (pimQuality s 0 (some 0) (dlaIn n)).toNat &&& mask ≠ 0

/-- The place in a bank of ARMED and LAST_CYC: the words after the header of P0's instance (R298, log entry 15). -/
def dlaPlace (s : State) : Nat := ((regionOf s 0).map (·.1)).getD 0 + 0x10010

/-- Whether the application is still armed from the cycle before, by its instance in a lane's bank. -/
def dlaWas (s : State) (l : Lane) : Bool :=
  bankWord s l (dlaPlace s) ≠ 0#32 &&
    (bankWord s l (dlaPlace s + 4)).toNat + 2 ^ 32 * (bankWord s l (dlaPlace s + 8)).toNat + 1 = s.scn.cycle

/-- What the code of R298 computes: the outputs, ARMED, the fault flags, and the doors open and pending. -/
structure DlaEval where
  permit : Bool
  armed : Bool
  lamp : Bool
  inFault : Bool
  fbFault : Bool
  open_ : Nat
  pend : Nat
  deriving DecidableEq, Repr

/-- The code of R298, over the instance in a lane's bank. -/
def dlaEval (s : State) (l : Lane) : DlaEval :=
  let val := fun n => pimLoad s l (some 0) (dlaIn n) ≠ 0#32
  let open_ := (List.range 40).countP (fun n => !val n)
  let pend := (List.range 40).countP (fun n => dlaQual s n qProof)
  let inFault := (List.range 44).any (fun n => dlaQual s n (qFault + qBreak))
  let fbFault := [0, 1].any (fun n => bit (pimLoad s l (some 0) ⟨true, n⟩) 5)
  let pulse := pimLoad s l (some 0) dlaPulse ≠ 0#32
  let armed := if inFault || fbFault then false else if pulse && open_ = 0 then true else dlaWas s l
  { permit := armed && open_ = 0, armed := armed, inFault := inFault, fbFault := fbFault, open_ := open_, pend := pend,
    lamp := if inFault || fbFault then true
      else if !armed || 0 < pend then s.scn.cycle / 50 % 2 = 1 else false }

/-- The lanes of a triad that hold a core. -/
def liveLanes (s : State) (t : TriadId) : List Lane := (fins 3).filter (fun l => s.triads[t].cores[l].isSome)

/-- What a released store of P0 carries: of the application's three outputs, the value that its code computes, whatever
instructions stand for that code in its ROM (R299, log entry 15); of any other signal, the value presented. -/
def dlaStored (s : State) (t : TriadId) (g : Sig) (v : Word) : Word :=
  let x := dlaEval s ((liveLanes s t).headD 0)
  if g = ⟨false, 0x100000⟩ ∨ g = ⟨false, 0x100001⟩ then w32 (b2n x.permit)
  else if g = ⟨false, 0x100004⟩ then w32 (b2n x.lamp) else v

/-- Whether a commit is the next of the four that a Solve of the door loop application produces (R299): the stores of the
signals of OUT_0, OUT_1 and OUT_4, and the return of the entry block. Its code presents no other, so that none arises from it
(log entry 15). -/
def dlaCommit (s : State) (p : PartId) (r : CommitRec) : Bool :=
  !(s.saf.dlaActive && p = 0) || match r.seq.toNat with
    | 1 => r.kind = 1 && r.sub = 0x31 && r.addr = 0x100000#32
    | 2 => r.kind = 1 && r.sub = 0x31 && r.addr = 0x100001#32
    | 3 => r.kind = 1 && r.sub = 0x31 && r.addr = 0x100004#32
    | 4 => r.kind = 4
    | _ => false

/-- The end of a Solve of the door loop application: its three stores have been released, each lane has ARMED and LAST_CYC in
its instance in its own bank, and SAF_DLA_ST shows the state (R298, R299, log entry 15). -/
def dlaSolve (t : TriadId) (s : State) : State :=
  let x := dlaEval s ((liveLanes s t).headD 0)
  let at_ := dlaPlace s
  let s := forEach (liveLanes s t) (fun l s => bankStore l at_
    (leBytes 4 (b2n (dlaEval s l).armed) ++ leBytes 4 (s.scn.cycle % 2 ^ 32) ++ leBytes 4 (s.scn.cycle / 2 ^ 32)) s) s
  { s with saf := { s.saf with
      dlaSt := w32 (0x80000000 + x.open_ * 65536 + x.pend * 256 + 32 * b2n x.lamp + 16 * b2n x.fbFault +
        8 * b2n x.inFault + 4 * b2n (x.open_ = 0) + 2 * b2n x.armed + b2n x.permit) } }

/-! ### Output values -/

/-- A value handed over to one channel of the owner (R55 items 3 and 4, R262, R267). An OVERLOAD latch holds a non-vital
channel off (R259), and so does R423 after a hand-over. -/
def handOver (v : Bool) (ch : Chan) (s : State) : State :=
  if s.dio.outs[ch].vital then
    let off := s.dio.outs[ch].brkTest && s.dio.outs[ch].want && !v
    let s := match chanSbc ch with
      | some k => if off then abortBrake k s else s
      | none => s
    modOut ch (fun o =>
      { o with want := v, credit := some (s.scn.cycle + 1),
               waitOn := if o.brkTest && v then some (o.waitOn.getD s.tb) else none }) s
  else modOut ch (fun o => { o.setLatch (v && !o.ovld && !twinHeld s ch) s.tb with emitted := true, silFrom := s.tb, silFired := false }) s

/-- The values of a partition's output signals, handed over to every member of their gangs (R144, R260). -/
def handOverAll (p : PartId) (s : State) : State :=
  forEach chans (fun ch s =>
    if chanOwner s ch = some p then
      match chanSig s ch with
      | some g => handOver (majSignal s (some p) g ≠ 0#32) ch s
      | none => s
    else s) s

/-! ### The equaliser -/

/-- The signals of a partition that the equaliser sends: its internal signals, and the output and boundary signals it
owns. -/
def sliceSigs (s : State) (p : PartId) : List Sig := match s.olc.active with
  | some im => im.gaz.filterMap (fun e => e.sig.bind (fun g =>
      if g.area = .internal then (if e.part = p then some g else none)
      else if (g.area = .output ∨ g.area = .boundary) ∧ ownerOf s (.signal g) = some p then some g else none))
  | none => []

/-- The bytes of a page in bank A. A page beyond the region holds NEXT copies of boundary signals, which stand in the
system area: it has no bytes but theirs. -/
def regionBytes (s : State) (p : PartId) (page : Nat) : List Byte :=
  let first := pageWord s p page
  let ts := if page < regionPages s p then touched s first (first + 512) else []
  (List.range 512).flatMap (fun i =>
    if ts.contains (first + i) then bankBytes s 0 (8 * (first + i)) 8 else List.replicate 8 0#8)

/-- The bytes of a page as a reader finds them: the words of the region and the signals of the slice. -/
def pageBytes (s : State) (p : PartId) (page : Nat) : List Byte :=
  ((sliceSigs s p).filter (fun g => slicePage s p g = page)).foldl (fun bs g =>
    let o := slicePlace p g
    bs.take o ++ leBytes 4 (majArea s (some p) g).toNat ++ bs.drop (o + 4)) (regionBytes s p page)

/-- The boundary signals whose NEXT copies a page holds, by key. -/
def nextKeys (s : State) (p : PartId) (page : Nat) : List Nat :=
  ((sliceSigs s p).filter (fun g => g.area = .boundary && slicePage s p g = page)).map Sig.key

/-- The equaliser's read of a page under R78 (R22, R416): a word with an odd copy is rewritten from the two, corrected errors
are written back, and a word without a majority stops the triad that runs the partition, or is FATAL if it is one of the NEXT
copies, which stand in the system area (R79). That a repair raises no event, R79 naming none for this reader, is a choice of
the model (log entry 115). -/
def eqRead (p : PartId) (page : Nat) (s : State) : State :=
  if page < regionPages s p then
    let first := pageWord s p page
    forEach (pageWords s p page) (fun w s => match judgeRegion s p w with
      | .fine => s
      | .repair b => repairRegion p b w s
      | .noMajority => match triadOf s p with
        | some t => if formed s t then vitalStopsTriad Ev.noCopyMajority (w32 0) 0#32 t s else s
        | none => s)
      (softDone (8 * first) (8 * (first + 512)) s)
  else
    forEach (nextKeys s p page) (fun k s => match nextJudge s k with
      | .fine => s
      | .repair b => nextRepair k b s
      | .noMajority => if s.scn.mode = .safe then s else fatalEvent Ev.sysCopyNoMajority 0#32 0#32 s)
      { s with sysSoft := vmap (fun l => l.filter (fun x => !(nextKeys s p page).any (fun k => x = .image 0 k))) s.sysSoft }

/-- Whether every word of a page has a majority: only such a page goes into a stream (R22, R416). -/
def eqSound (s : State) (p : PartId) (page : Nat) : Bool :=
  if page < regionPages s p then (pageWords s p page).all (fun w => judgeRegion s p w ≠ .noMajority)
  else (nextKeys s p page).all (fun k => nextJudge s k ≠ .noMajority)

/-- A data page: outside the program area and outside the overlay, or a page of the NEXT copy (R416). -/
def dataPage (s : State) (p : PartId) (page : Nat) : Bool :=
  decide (firstDataPage s p ≤ page ∧ page < overlayPage s p ∨ regionPages s p ≤ page)

/-- The bytes of a stream of `n` pages: header, pages and end record (R416). -/
def eqBytes (n : Nat) : Nat := 48 + 4104 * n

/-- Whether a stream may hold `n` pages (R417). -/
def eqFits (s : State) (n : Nat) : Bool :=
  decide (eqBytes n ≤ s.rck.limitAct.toNat * 1024 ∧ eqBytes n ≤ 3000000)

/-- The pages of a stream in their order (R417): those owed, then those written in the cycle. -/
def EqStream.all (x : EqStream) : List EqPage := x.first ++ x.pages

/-- A page as the stream names it. -/
def EqPage.name (x : EqPage) : PartId × Nat := (x.part, x.ofs / 4096)

/-- Pages of a quiescent partition placed in the stream: its owed pages behind the owed pages of others and before every
page written in the cycle, each with the content it has now. What no longer fits at the end is owed (R417). -/
def eqPlace (p : PartId) (owed written : List Nat) (s : State) : State :=
  match s.rck.building with
  | none => s
  | some b =>
    let page := fun (n : Nat) => (⟨p, 4096 * n, pageBytes s p n⟩ : EqPage)
    let first := b.first ++ owed.map page
    let pages := b.pages ++ written.map page
    let room := (List.range (first ++ pages).length).countP (fun i => eqFits s (i + 1))
    let out := ((first ++ pages).drop room).map EqPage.name
    { s with rck := { s.rck with
        building := some { b with first := first.take room, pages := pages.take (room - first.length) },
        owed := s.rck.owed.filter (fun x => x.1 ≠ p && !out.contains x) ++ out } }

/-- The pages owed of a partition. -/
def owedOf (s : State) (p : PartId) : List Nat := (s.rck.owed.filter (fun x => x.1 = p)).map (·.2)

/-- The equaliser reads pages of a partition that is quiescent, its owed ones and those written in the cycle, and places
those that have a majority in every word; the others are owed. -/
def eqTake (p : PartId) (owed written : List Nat) (s : State) : State :=
  let s := forEach (owed ++ written) (eqRead p) s
  let lost := (owed ++ written).filter (fun n => !eqSound s p n)
  let s := eqPlace p (owed.filter (eqSound s p)) (written.filter (eqSound s p)) s
  { s with rck := { s.rck with owed := s.rck.owed ++ lost.map (fun n => (p, n)) } }

/-- The equaliser copies a partition's owed pages and its pages written in the cycle as its commit of kind 0x4 is released
(R416, R417). -/
def eqCopy (p : PartId) (s : State) : State :=
  match s.rck.role, s.rck.building with
  | .active, some b =>
    let owed := owedOf s p
    let written := ((s.rck.written.filter (fun x => x.1 = p && dataPage s p x.2)).map (·.2)).filter (fun n => !owed.contains n)
    eqTake p owed written { s with rck := { s.rck with building := some { b with mask := bitSet b.mask p.val true } } }
  | _, _ => s

/-! ### Check jobs -/

/-- The bank passes of a job (R453). -/
def jobBanks (j : CheckJob) : List Lane := match j.bank with
  | 0 => [0, 1, 2]
  | 1 => [0]
  | 2 => [1]
  | 3 => [2]

/-- A partition's jobs start in job order on their units (R453), those that are in JOBS (R449). -/
def startJobs (p : PartId) (s : State) : State :=
  match partDesc s p with
  | none => s
  | some d => forEach (d.jobs.zipIdx) (fun x s =>
      if x.1.valid && s.crc[x.1.unit].modeAct = 2#2 then
        modCrc x.1.unit (fun u => { u with jobs := u.jobs ++ (jobBanks x.1).map (fun b => ⟨p, x.2, b⟩) }) s
      else s) s

/-! ### The release of a commit of kind 0x4 -/

/-- Solve ends and Emit starts (R142, R144): what the release of the commit of kind 0x4 brings with it. The output values
reach their channels at the start of Emit, all at one tick: a choice of the model within the 1.0 ms of R142 (log entry
81). Where the equaliser's read stops the partition, nothing follows. -/
def emitStart (t : TriadId) (p : PartId) (s : State) : State :=
  let u := usSince s.scn.agreeTb s.tb
  let s := modPart p (fun x =>
    { x with st := .ended, entered := false, released := true, releaseTb := s.tb, releaseCyc := s.scn.cycle,
             emitting := true, emitStepped := decide (s.scn.mode = .hold), last := u,
             solveMax := if x.solveMax < u then u else x.solveMax }) s
  let s := if s.saf.dlaActive && p = 0 then dlaSolve t s else s
  let s := phaseEnd (refreshCodes (handOverAll p s))
  let s := eqCopy p s
  if s.parts[p].st ≠ .ended then s else heelGoOn t (svyClose t 2 (startJobs p s))

end Sys2Proof.Machine
end

