-- ==== Sys2Proof/Machine/Voter.lean ====
section
/-!
DEFINITION. The voters (R38 to R50, R129, R133): arrivals, release, odd lanes and stops, the lag window, the handler
budget, and what the voter lanes find in each other and on the drive lines (R53, R57).
-/
namespace Sys2Proof.Machine

open Sys2Proof

/-- The lag window and LAGWARN in TB ticks (R41, R60). -/
def lagWin (s : State) : Nat := s.tri.lagWinAct.toNat * 50
def lagWarn (s : State) : Nat := s.tri.lagWarnAct.toNat * 50

/-- Two messages match (R39, R129). -/
def msgMatch : LaneMsg → LaneMsg → Bool
  | .commit a, .commit b => decide (a = b)
  | .trap a, .trap b => a.code = b.code && a.seq = b.seq && a.pc = b.pc
  | _, _ => false

/-- The sequence number of a message. -/
def LaneMsg.seq : LaneMsg → Word
  | .commit r => r.seq
  | .trap r => r.seq

/-- ARG_A of a TRI event that concerns one lane (R471). -/
def coreArg (s : State) (t : TriadId) (l : Lane) : Word :=
  w32 (256 * (l.val + 1) + match s.triads[t].cores[l] with
    | some c => c.val
    | none => 0)

/-- ARG_A of a TRI event that concerns no single core: the odd lane while the triad is a pair, as R61 encodes it and
the worked example of R507 reads it (log entry 16). -/
def triArg (s : State) (t : TriadId) : Word := match s.triads[t].mode, s.triads[t].odd with
  | .pair, some l => w32 (256 * (l.val + 1))
  | _, _ => 0#32

/-- B and the number of the cycle that voting events count as: those of the running cycle, or, for the closing of R45,
of the ending one. That the captures of R68 then take the ending cycle, where the event's own entry carries the number in
force when it is raised (R385), is a choice of the model (log entry 120). -/
structure VoteAt where
  base : Nat
  cyc : Nat
  deriving DecidableEq, Repr

/-- The running cycle. -/
def voteNow (s : State) : VoteAt := ⟨s.scn.bTb, s.scn.cycle⟩

/-- The commit record of a message. -/
def LaneMsg.record : LaneMsg → Option CommitRec
  | .commit r => some r
  | .trap _ => none

/-- The voting capture (R68): the released or first-arriving record, and who had arrived. For a trap report, which carries
no commit kind, address or signature (R129), KIND, ADDR and SIG read 0: a choice of the model (log entry 94). -/
def voteCapture (code : Nat) (t : TriadId) (arrs : List Arr) (released : Option CommitRec) (at_ : VoteAt)
    (s : State) : State :=
  if s.triads[t].cap.valid then s
  else
    let ref := released <|> (arrs.head?.bind (fun a => a.msg.record))
    let arr := fun (l : Lane) => arrs.find? (fun a => a.lane = l)
    let cap : Capture :=
      { valid := true, present := arrs.foldl (fun p a => bitSet p a.lane.val true) 0#3,
        kind := BitVec.ofNat 4 ((ref.map (·.kind)).getD 0), event := BitVec.ofNat 8 code,
        seq := match ref, arrs.head? with
          | some r, _ => r.seq
          | none, some a => a.msg.seq
          | none, none => 0#32,
        cyc := w32 at_.cyc, addr := (ref.map (·.addr)).getD 0#32,
        sigs := vgen 3 (fun l => (((arr l).bind (fun a => a.msg.record)).map (·.sig)).getD 0#64),
        arrs := vgen 3 (fun l => ((arr l).map (fun a => w32 (a.stamp - at_.base))).getD 0#32) }
    modTriad t (fun x => { x with cap := cap }) s

/-- The voter stops its triad (R43, R49): the capture, and the VITAL event. -/
def voterStop (code : Nat) (t : TriadId) (arrs : List Arr) (at_ : VoteAt) (s : State) : State :=
  let seq := match arrs with
    | a :: _ => a.msg.seq
    | [] => 0#32
  vitalStopsTriad code (triArg s t) seq t (voteCapture code t arrs none at_ s)

/-- A lane is odd (R46, R58, R61): its core leaves the lane, the triad is a pair, Heel starts (R70), the event is
raised, and records that wait are judged again as those of a pair. -/
def laneOdd (code : Nat) (t : TriadId) (l : Lane) (seq : Word) (arrs : List Arr) (released : Option CommitRec)
    (at_ : VoteAt) (s : State) : State :=
  let arg := coreArg s t l
  let s := voteCapture code t arrs released at_ s
  let s := match s.triads[t].cores[l] with
    | some c => logCore c 0 (logCore c 1 (modCore c (fun k => { k.halt with st := .odd }) s))
    | none => s
  let s := modTriad t (fun x =>
    { x with mode := .pair, odd := some l, cores := vset x.cores l none, pairSince := s.tb,
             voter := { cur := x.voter.cur.filter (fun a => a.lane ≠ l), wait := [] },
             hnd := { x.hnd with late := vset x.hnd.late l 0, retn := bitSet x.hnd.retn l.val false } }) s
  let s := vitalKeeps code arg seq t (heelStart t l s)
  if s.triads[t].mode = .pair then
    match s.triads[t].voter.cur with
    | [a, b] => if msgMatch a.msg b.msg then s else voterStop Ev.pairMismatch t [a, b] at_ s
    | _ => s
  else s

/-! ### Release -/

/-- The signal of a released store record. -/
def CommitRec.signal (r : CommitRec) : Sig := ⟨r.sub / 16 = 4, r.addr.toNat⟩

/-- The check of R47 against the ownership table; a Survey request goes to the triad's own queue. -/
def recOwned (s : State) (p : PartId) (r : CommitRec) : Bool :=
  if r.sub / 16 = 3 ∨ r.sub / 16 = 4 then ownerOf s (.signal r.signal) = some p
  else if r.sub / 16 = 5 then match devOf s r.addr.toNat with
    | some d => devOwned s d p
    | none => false
  else true

/-- A released store reaches its destination (R37, R40). -/
def recWrite (t : TriadId) (p : PartId) (r : CommitRec) (s : State) : State :=
  if r.sub / 16 = 3 ∨ r.sub / 16 = 4 then 
    heelKick t (releaseSignal p r.signal
      (if s.saf.dlaActive && p = 0 then dlaStored s t r.signal r.value else r.value) s)
  else if r.sub / 16 = 5 then match devOf s r.addr.toNat with
    | some d => devWrite none d r.addr.toNat (r.sub % 16) r.value s
    | none => s
  else svyAppend t r.value s

/-- The NMI entry of a partition, 0 for none. -/
def nmiEntryOf (s : State) (p : PartId) : Nat := ((partDesc s p).map (·.nmiEntry)).getD 0

/-- The first pending NMI is attached (R133, R134, R462, R465): its code, and the handling state after. None is
attached while one is being handled. That of two pending the second comes with a commit or entry released after the first
handler's RETN is a choice of the model (log entry 123). -/
def attachNmi (t : TriadId) (p : PartId) (s : State) : Option Nat × State :=
  let h := s.triads[t].hnd
  match h.active, h.nmis with
  | none, (code, own) :: rest =>
    if nmiEntryOf s p = 0 then
      (some code, modHnd t (fun h =>
        { h with nmis := rest, isOpen := if own then false else h.isOpen, taken := if own then false else h.taken }) s)
    else
      (some code, modHnd t (fun h =>
        { h with nmis := rest, active := some (code, own), retn := 0#3, taken := if own then true else h.taken,
                 budgetFrom := if own then s.tb else h.budgetFrom }) s)
  | _, _ => (none, s)

/-- A lane goes on after its record was released or matched, and takes the NMI attached to it (R36, R133). -/
def laneGo (t : TriadId) (p : PartId) (l : Lane) (kind : Nat) (nmi : Option Nat) (s : State) : State :=
  match s.triads[t].cores[l] with
  | none => s
  | some c =>
    let entry := nmiEntryOf s p
    modCore c (fun k =>
      let k := Core.resume (kind = 4) k
      match nmi with
      | some code => Core.takeNmi entry code k
      | none => k) s

/-- A third lane owes five records: it is odd with ODD_LATE (R42). The capture shows the oldest of them, the one whose
window would end first: a choice of the model (log entry 93). -/
def lagFull (t : TriadId) (s : State) : State := match s.triads[t].voter.wait with
  | w :: _ =>
    if 4 < s.triads[t].voter.wait.length then
      laneOdd Ev.oddLate t w.third w.record.seq w.arrs (some w.record) (voteNow s) s
    else s
  | [] => s

/-- The release of a commit at the TB of State (R40, R42, R47, R133). `lanes` have matched; `third` still owes its record.
A fifth record owed makes the third lane odd once the commit is released. -/
def releaseCommit (t : TriadId) (p : PartId) (r : CommitRec) (arrs : List Arr) (lanes : List Lane)
    (third : Option Lane) (s : State) : State :=
  let s := modVoter t (fun v => { v with cur := [] }) s
  let s := modTriad t (fun x => { x with commits := x.commits + 1 }) s
  if r.kind = 1 && !recOwned s p r then vitalStopsPart Ev.storeNotOwned (triArg s t) r.seq t s
  else
    let s := if r.kind = 1 then recWrite t p r s else s
    let (nmi, s) := if r.kind = 4 then (none, s) else attachNmi t p s
    let s := match third with
      | some l => modVoter t (fun v => { v with wait := v.wait ++ [⟨r, s.tb, l, arrs, nmi⟩] }) s
      | none => s
    let s := forEach lanes (fun l => laneGo t p l r.kind nmi) s
    lagFull t (if r.kind = 4 then emitStart t p s else s)

/-- The trap capture set holds the first trap taken while VALID is 0 (R136). -/
def trapCapture (t : TriadId) (r : TrapRec) (lanes : List Lane) (s : State) : State :=
  if s.triads[t].trap.valid then s
  else modTriad t (fun x => { x with trap :=
    { valid := true, lanes := lanes.foldl (fun b l => bitSet b l.val true) 0#3, code := BitVec.ofNat 8 r.code,
      pc := r.pc, addr := r.addr, cyc := w32 s.scn.cycle } }) s

/-- The time from the second arrival to the release, in TB ticks: 40 to 60 ns, and within that a free value (R40, R541, log
entry 28). -/
def releaseDelay (s : State) : Nat := 4 + (Config.freeWord s.freeDraws).toNat % 3

/-- Whether a release stamped at a tick would come after the end of the partition's budget (R154). -/
def pastBudget (s : State) (p : PartId) (r : CommitRec) (n : Nat) : Bool :=
  r.kind = 4 && s.parts[p].budgetArmed ≠ 0#20 && decide (s.scn.agreeTb + s.parts[p].budgetArmed.toNat * usT < n)

/-- The release that follows two matching arrivals: TB is that of the release. One that would not be stamped before the
next boundary, or one of kind 0x4 after the partition's budget has ended, does not come about, and the partition is found
overrun (R154, R157). -/
def releaseAfter (t : TriadId) (p : PartId) (r : CommitRec) (arrs : List Arr) (lanes : List Lane) (third : Option Lane)
    (s : State) : State :=
  let n := s.tb + releaseDelay s
  if decide (s.scn.nextB ≤ n) || pastBudget s p r n then s
  else releaseCommit t p r arrs lanes third { advanceTo n s with freeDraws := s.freeDraws + 1 }

/-- Two matching messages decide a commit point: a release, or a trap taken (R40, R129). `atOnce` says that the release is
stamped at the arrival itself (R43). -/
def voteDecide (atOnce : Bool) (t : TriadId) (p : PartId) (msg : LaneMsg) (arrs : List Arr) (lanes : List Lane)
    (third : Option Lane) (s : State) : State :=
  match msg with
  | .commit r =>
    if !atOnce then releaseAfter t p r arrs lanes third s
    else if decide (s.scn.nextB ≤ s.tb) || pastBudget s p r s.tb then s else releaseCommit t p r arrs lanes third s
  | .trap r =>
    let arg := match lanes with
      | l :: _ => coreArg s t l
      | [] => 0#32
    vitalStopsPart r.code arg (r.pc.setWidth 32) t (trapCapture t r lanes s)

/-! ### Arrivals -/

/-- The record of a lane whose commit is released already (R41, R48, R58, R65). -/
def thirdArrives (t : TriadId) (p : PartId) (a : Arr) (w : Rel) (s : State) : State :=
  if w.stamp + lagWin s < a.stamp then
    laneOdd Ev.oddLate t a.lane w.record.seq (w.arrs ++ [a]) (some w.record) (voteNow s) s
  else if !msgMatch a.msg (.commit w.record) then
    laneOdd Ev.oddMismatch t a.lane w.record.seq (w.arrs ++ [a]) (some w.record) (voteNow s) s
  else
    let lag := a.stamp - w.stamp
    let warn := decide (lagWarn s ≠ 0 ∧ lagWarn s < lag) && !s.triads[t].lagWarned
    let s := modTriad t (fun x =>
      { x with voter := { x.voter with wait := x.voter.wait.drop 1 }, lagWarned := x.lagWarned || warn,
               lagRun := if x.lagRun.1 = 0#2 ∨ x.lagRun.2 < lag then (BitVec.ofNat 2 (a.lane.val + 1), lag)
                 else x.lagRun }) s
    let s := if warn then
        noteLast Ev.lagWarn t (nvEventFor Ev.lagWarn (whoOf t) (coreArg s t a.lane) w.record.seq s)
      else s
    laneGo t p a.lane w.record.kind w.nmi s

/-- The lane of a triad that is none of two others. -/
def laneBesides (s : State) (t : TriadId) (a b : Lane) : Option Lane :=
  (fins 3).find? (fun l => l ≠ a && l ≠ b && s.triads[t].cores[l].isSome)

/-- Whether a message stops its partition by an event of its own: a trap, or a store that the partition does not own. The
lower code of ODD_MISMATCH then comes first (R464). -/
def msgStops (s : State) (p : PartId) : LaneMsg → Bool
  | .commit r => r.kind = 1 && !recOwned s p r
  | .trap _ => true

/-- The records of one commit point not yet released, the last of them just arrived (R40, R43, R49). -/
def curArrives (t : TriadId) (p : PartId) (s : State) : State :=
  let pair := s.triads[t].mode = .pair
  match s.triads[t].voter.cur with
  | [a, b] =>
    if pair then
      if a.stamp + lagWin s < b.stamp then voterStop Ev.pairLate t [a, b] (voteNow s) s
      else if msgMatch a.msg b.msg then voteDecide false t p a.msg [a, b] [a.lane, b.lane] none s
      else voterStop Ev.pairMismatch t [a, b] (voteNow s) s
    else if msgMatch a.msg b.msg then
      voteDecide false t p a.msg [a, b] [a.lane, b.lane] (laneBesides s t a.lane b.lane) s
    else s
  | [a, b, c] =>
    if msgMatch a.msg b.msg then s
    else if b.stamp + lagWin s < c.stamp then voterStop Ev.voteUnresolved t [a, b, c] (voteNow s) s
    else if msgMatch a.msg c.msg || msgMatch b.msg c.msg then
      let (same, other) := if msgMatch a.msg c.msg then (a, b) else (b, a)
      let decide_ := fun s => voteDecide true t p c.msg [a, b, c] [same.lane, c.lane] none s
      let odd := fun s => laneOdd Ev.oddMismatch t other.lane c.msg.seq [a, b, c] c.msg.record (voteNow s) s
      let s := modVoter t (fun v => { v with cur := [] }) s
      if msgStops s p c.msg then decide_ (odd s)
      else
        let s := decide_ s
        if formed s t then odd s else s
    else voterStop Ev.noMajority t [a, b, c] (voteNow s) s
  | _ => s

/-- A lane's message reaches the voter (R38 to R43, R129): `agree` is false when a voter lane's decision differs. -/
def arrive (t : TriadId) (l : Lane) (agree : Bool) (msg : LaneMsg) (c : CoreId) (p : PartId) (s : State) : State :=
  let s := modCore c (fun k => { k with out := none }) s
  let a : Arr := ⟨l, msg, s.tb⟩
  if !agree then vitalStopsTriad Ev.voterFault (triArg s t) msg.seq t s
  else match s.triads[t].voter.wait with
    | w :: _ =>
      if w.third = l then thirdArrives t p a w s
      else curArrives t p (modVoter t (fun v => { v with cur := v.cur ++ [a] }) s)
    | [] => curArrives t p (modVoter t (fun v => { v with cur := v.cur ++ [a] }) s)

/-- What the lane of a triad with a running partition has presented and the voter has not taken yet. -/
def presented (s : State) (t : TriadId) (l : Lane) : Option (CoreId × PartId × LaneMsg) :=
  (runningPart s t).bind (fun p => s.triads[t].cores[l].bind (fun c => s.cores[c].out.map (fun m => (c, p, m))))

/-- COMMIT_ARRIVAL (R40). The door loop application presents its four commits in their order (R299). -/
def execCommitArrival (t : TriadId) (l : Lane) (agree : Bool) (s : State) : Host.Outcome State Fault Refusal :=
  .next (match presented s t l with
    | some (c, p, .commit r) => if dlaCommit s p r then arrive t l agree (.commit r) c p s else s
    | _ => s)

/-- TRAP_REPORT_ARRIVAL (R129). -/
def execTrapReportArrival (t : TriadId) (l : Lane) (agree : Bool) (s : State) : Host.Outcome State Fault Refusal :=
  .next (match presented s t l with
    | some (c, p, .trap r) => arrive t l agree (.trap r) c p s
    | _ => s)

/-! ### Windows -/

/-- LAG_WINDOW_EXPIRY (R41, R43, R49): the oldest window that is open ends. -/
def execLagWindowExpiry (t : TriadId) (s : State) : Host.Outcome State Fault Refusal :=
  .next (
    if (runningPart s t).isNone then s
    else match s.triads[t].voter.wait, s.triads[t].voter.cur with
    | w :: _, _ =>
      let s := advanceTo (w.stamp + lagWin s) s
      laneOdd Ev.oddLate t w.third w.record.seq w.arrs (some w.record) (voteNow s) s
    | [], [a, b] =>
      let s := advanceTo (b.stamp + lagWin s) s
      if s.triads[t].mode = .triad && !msgMatch a.msg b.msg then voterStop Ev.voteUnresolved t [a, b] (voteNow s) s else s
    | [], [a] =>
      if s.triads[t].mode = .pair then
        let s := advanceTo (a.stamp + lagWin s) s
        voterStop Ev.pairLate t [a] (voteNow s) s
      else s
    | [], _ => s)

/-- Every window still open at the boundary closes there (R45): the third lane is odd, an open vote is unresolved. -/
def closeWindows (at_ : VoteAt) (t : TriadId) (s : State) : State :=
  if (runningPart s t).isNone then s
  else
    let s := match s.triads[t].voter.wait with
      | w :: _ => laneOdd Ev.oddLate t w.third w.record.seq w.arrs (some w.record) at_ s
      | [] => s
    let s := match s.triads[t].voter.cur with
      | [a, b] => if s.triads[t].mode = .triad then voterStop Ev.voteUnresolved t [a, b] at_ s else s
      | [a] => if s.triads[t].mode = .pair then voterStop Ev.pairLate t [a] at_ s else s
      | _ => s
    modVoter t (fun _ => Voter.init) s

/-- HANDLER_BUDGET_EXPIRY (R462, R463): the second VITAL event of the interval. -/
def execHandlerBudgetExpiry (t : TriadId) (s : State) : Host.Outcome State Fault Refusal :=
  .next (
    if s.triads[t].hnd.isOpen && s.triads[t].hnd.taken then
      vitalKeeps Ev.handlerOverrun 0#32 0#32 t (advanceTo (s.triads[t].hnd.budgetFrom + 20000) s)
    else s)

/-- ENABLE_DISAGREEMENT (R53). A triad that does not run asserts no enable. -/
def execEnableDisagreement (t : TriadId) (s : State) : Host.Outcome State Fault Refusal :=
  .next (if formed s t then vitalStopsTriad Ev.voterFault (triArg s t) 0#32 t s else s)

/-- A latch of R294 on a channel ends its exercise (R295). -/
def latchEndsExercise (ch : Chan) (s : State) : State :=
  match s.saf.exer with
  | some (c, _) => if chanLead s c = chanLead s ch then endExercise s else s
  | none => s

/-- DYN_CODE_READBACK_MISMATCH (R57): the channel, and every member of its gang (R260), is latched OFF. -/
def execDynCodeReadbackMismatch (ch : Chan) (s : State) : Host.Outcome State Fault Refusal :=
  .next (
    if !s.dio.outs[ch].vital || suppressed s ch || bit s.tri.dynFault ch.val || !s.variant.dio then s
    else
      let set := (gangOf s ch).foldl (fun b c => bitSet b c.val true) s.tri.dynFault
      let s := refreshCodes { s with tri := { s.tri with dynFault := set } }
      vitalForChanArg Ev.dynCodeFault ch 0#32 (latchEndsExercise ch s))

end Sys2Proof.Machine
end

