-- ==== Sys2Proof/Machine/Kennel.lean ====
section
/-!
DEFINITION. Heel passes as they end (R71 to R76), the limit of pair operation (R76), and the Kennel: tests, quick
checks, retries and re-tests (R85 to R87, R90, R480, R494).
-/
namespace Sys2Proof.Machine

open Sys2Proof

/-! ### Heel -/

/-- HEEL_PASS_END (R73, R74, R76): the pages of the pass are judged, and the next pass starts or waits. While it waits with
its region not ready, TRI_HEEL_ST_n.STATE reads 0x3: a choice of the model (log entry 96). -/
def execHeelPassEnd (t : TriadId) (s : State) : Host.Outcome State Fault Refusal :=
  .next (
    let h := s.triads[t].heel
    match h.bank, s.triads[t].part with
    | some odd, some p =>
      if !h.running then s
      else
        let pages := if h.st = .full then touchedPages s p else h.pages
        let s := forEach pages (judgePage t p odd) s
        let s := modHeel t (fun h => { h with pages := [], pass := min (h.pass + 1) 255 }) s
        let slow := decide (64 ≤ s.triads[t].heel.pass) && !s.triads[t].heel.slow
        let s := if slow then
            nvEventFor Ev.heelSlow (whoOf t) (w32 (256 * (odd.val + 1))) 0#32
              (modHeel t (fun h => { h with slow := true }) s)
          else s
        heelPump odd (modHeel t (fun h => { h with st := if heelDue s t then .waitEngine else .waitReserve }) s)
    | some odd, none =>
      if h.running then heelPump odd (modHeel t (fun h => { h with st := .none, pages := [] }) s) else s
    | none, _ => s)

/-- PAIR_LIMIT_EXPIRY (R76): PAIR_LIMIT seconds as a pair have passed; the next boundary raises PAIR_EXPIRED. -/
def execPairLimitExpiry (t : TriadId) (s : State) : Host.Outcome State Fault Refusal :=
  .next (
    if s.triads[t].mode = .pair && s.tri.pairLimitAct ≠ 0#16 then
      advanceTo (s.triads[t].pairSince + s.tri.pairLimitAct.toNat * secT) s
    else s)

/-! ### Test conditions (R480) -/

/-- TB runs from XO and the ring-speed index of each lane lies in its window. -/
def testCond (s : State) : Bool :=
  !s.clk.srcIo && (fins 3).all (fun l =>
    decide (Config.rsiWinMin.toNat ≤ s.clk.rsi[l].toNat ∧ s.clk.rsi[l].toNat ≤ Config.rsiWinMax))

/-! ### Outcomes (R87) -/

/-- BST_INVALID_CONDITIONS in START: raised once in each START (R481). -/
def invalidOnce (a : Word) (s : State) : State :=
  if s.bst.invRaised then s
  else nvEvent Ev.bstInvalidConditions a 0#32 { s with bst := { s.bst with invRaised := true } }

/-- Whether a core waits in KENNEL for valid conditions. -/
def kenWaits (s : State) (c : CoreId) : Bool := s.cores[c].st = .kennel && decide (s.cores[c].ken = .waitInvalid)

/-- Whether START still runs: in START, or in SAFE before B of cycle 1, where a FATAL event has led (R147, R481). -/
def inStart (s : State) : Bool := s.scn.mode = .start || (s.scn.mode = .safe && s.scn.cycle = 0)

/-- An INVALID_CONDITIONS outcome of a core's test or check (R87). In START it follows R481: it is tried again 1 s later,
and WAIT reads 1 until then. -/
def kenInvalid (c : CoreId) (s : State) : State :=
  let s := logCore c 4 (modCore c (fun k => { k with ken := .waitInvalid, kenAt := s.tb, kenResult := none }) s)
  if inStart s then invalidOnce (w32 c.val) { s with bst := { s.bst with wait := true } }
  else nvEvent Ev.bstInvalidConditions (w32 c.val) 0#32 (nvEvent Ev.kennelInvalid (w32 c.val) 0#32 s)

/-- A core that is in KENNEL starts its test, or the quick check, if the conditions hold (R480). -/
def kenTest (quick : Bool) (c : CoreId) (s : State) : State :=
  let s := modCore c (fun k =>
    { k with ken := if quick then .quick else .test, kenQuick := quick, kenResult := none, due := false }) s
  if testCond s then s else kenInvalid c s

/-- A core enters KENNEL, with caches and local SRAM cleared (R84, R86), and starts its test. A re-test keeps the place
of R82. -/
def kenEnter (quick retest : Bool) (c : CoreId) (s : State) : State :=
  kenTest quick c (modCore c (fun k => { Core.init with st := .kennel, retest := retest, resSince := k.resSince }) s)

/-- The outcome of a Kennel test (R87, R479). A pass takes effect at the next boundary. -/
def kenOutcome (c : CoreId) (r : KResult) (s : State) : State :=
  match r with
  | .pass => logCore c 2 (modCore c (fun k => { k with kenResult := some (.pass, s.tb) }) s)
  | .fail =>
    let s := modCore c (fun k => { k with ken := .failed, kenResult := some (.fail, s.tb) }) s
    invalidateRec Ev.kennelFail (nvEvent Ev.kennelFail (w32 c.val) 0#32 (logCore c 3 s))
  | .invalid => kenInvalid c s

/-- The outcome of a quick check (R87, R90, R494): a core that fails it is given the full test. -/
def quickOutcome (c : CoreId) (r : KResult) (s : State) : State :=
  match r with
  | .pass => logCore c 2 (modCore c (fun k => { k with kenResult := some (.pass, s.tb) }) s)
  | .fail => kenTest false c (logCore c 3 s)
  | .invalid => kenInvalid c s

/-- Whether a core's test or quick check is running. -/
def kenRunning (s : State) (c : CoreId) (quick : Bool) : Bool :=
  s.cores[c].st = .kennel && s.cores[c].ken = (if quick then .quick else .test) && s.cores[c].kenResult.isNone

/-- KENNEL_TEST_END (R87). -/
def execKennelTestEnd (c : CoreId) (r : KResult) (s : State) : Host.Outcome State Fault Refusal :=
  .next (if kenRunning s c false then kenOutcome c r s else s)

/-- QUICK_KENNEL_CHECK_END (R90): the checks of a triad that is being leashed end. -/
def execQuickKennelCheckEnd (t : TriadId) (r : Vector KResult 3) (s : State) : Host.Outcome State Fault Refusal :=
  .next (
    if !s.triads[t].leashing then s
    else forEach (fins 3) (fun l s => match s.triads[t].cores[l] with
      | some c => if kenRunning s c true then quickOutcome c r[l] s else s
      | none => s) s)

/-- KENNEL_RETRY_DUE (R87): 1 s after the attempt; the next boundary starts the test again. In START, where no boundary
comes, it starts at once (R481). -/
def execKennelRetryDue (c : CoreId) (s : State) : Host.Outcome State Fault Refusal :=
  .next (
    if !kenWaits s c then s
    else
      let s := advanceTo (s.cores[c].kenAt + secT) s
      if inStart s then
        let s := kenTest s.cores[c].kenQuick c s
        { s with bst := { s.bst with wait := s.bst.wait && (fins 16).any (kenWaits s) } }
      else modCore c (fun k => { k with due := true }) s)

/-- RESERVE_RETEST_DUE (R85): RETEST hours of waiting; the next boundary starts the re-test. -/
def execReserveRetestDue (c : CoreId) (s : State) : Host.Outcome State Fault Refusal :=
  .next (
    if s.cores[c].st = .reserve && s.tri.retestAct ≠ 0#8 then
      modCore c (fun k => { k with due := true }) (advanceTo (s.cores[c].kenAt + s.tri.retestAct.toNat * hourT) s)
    else s)

end Sys2Proof.Machine
end

