-- ==== Sys2Proof/Machine/Can.lean ====
section
/-!
DEFINITION. The CAN FD channels (R351 to R373): reception, arbitration among the module's own requests, the end of
attempts, error confinement, bit timing and reinitialisation, snapshots at B and CAN areas at Agree.
-/
namespace Sys2Proof.Machine

open Sys2Proof

/-! ### The state of a channel -/

def canEn (x : Can) : Bool := bit x.cfgAct 0
def canListen (x : Can) : Bool := bit x.cfgAct 1
def canTdcEn (x : Can) : Bool := bit x.cfgAct 2
def canAutoRec (x : Can) : Bool := bit x.cfgAct 3
def canOwnRx (x : Can) : Bool := bit x.cfgAct 4

/-- Whether a channel takes part in the bus: it exists and is neither off nor integrating. -/
def canLive (s : State) (c : Fin 4) : Bool :=
  hasCan s c && (s.can[c].st = .active || s.can[c].st = .passive || s.can[c].st = .listen)

/-- The state after integration, by LISTEN and the error counts (R353, R356). -/
def canJoined (x : Can) : CanSt :=
  if canListen x then .listen else if 127 < x.txErr ∨ 127 < x.rxErr then .passive else .active

/-- Error active again when both counts are below 128. -/
def canSettle (x : Can) : Can :=
  if x.st = .passive && decide (x.txErr < 128 ∧ x.rxErr < 128) then { x with st := .active } else x

/-- Whether a channel only listens: bus monitoring, or TB runs from IO (R351, R369). Its counts TEC and REC stand still. -/
def canQuiet (x : Can) : Bool := x.st = .listen || x.clkIo

/-- Whether a channel may run: enabled, not gated, mode neither START nor SHUTDOWN (R355). -/
def canMayRun (s : State) (c : Fin 4) : Bool :=
  hasCan s c && canEn s.can[c] && !bit s.clk.gateClosed c.val && s.scn.mode ≠ .start && s.scn.mode ≠ .shutdown

/-- Every request of a channel ends NOT_SENT (R364). -/
def canDropAll (c : Fin 4) (s : State) : State :=
  modCan c (Can.drop (fun _ => true)) (canCutOff (fun _ => true) c s)

/-! ### Receiving (R358, R359) -/

/-- A frame into the receive buffer, or lost to overflow. -/
def canStore (c : Fin 4) (f : CanFrame) (own : Bool) (sof : Nat) (s : State) : State :=
  if 4096 ≤ s.can[c].buf.length then
    let raised := s.can[c].ovfRaised
    let s := modCan c (fun x => { x with rxLost := satInc x.rxLost, lostSince := x.lostSince + 1, lostFlag := true,
                                         ovfRaised := true }) s
    if raised then s else nvEvent Ev.canRxOverflow (w32 c.val) 0#32 s
  else
    let n := dlcBytes (bit f.id 31) f.dlc.toNat
    let data := if bit f.id 30 then [] else f.data.take n
    let s := logAdd (0xB00 + 32 * c.val) 1 s
    modCan c (fun x =>
      { x with buf := x.buf ++ [{ frame := { f with id := canId f.id, data := data }, own := own, lostBefore := x.lostFlag, sof := sof,
                                  seq := x.rxSeq }],
               lostFlag := false, rxSeq := x.rxSeq + 1#16, rxCnt := satInc x.rxCnt }) s

/-- REC after a frame received (ISO 11898-1, log entry 17): one less, or a value from 119 to 127 that the standard leaves
open when it was above 127. -/
def canRecDown (c : Fin 4) (s : State) : State :=
  if 127 < s.can[c].rxErr then
    let (w, s) := draw s
    modCan c (fun x => canSettle { x with rxErr := 119 + w.toNat % 9 }) s
  else modCan c (fun x => canSettle { x with rxErr := x.rxErr - 1 }) s

/-- CAN_FRAME_RECEIVED (R358). -/
def execCanFrameReceived (c : Fin 4) (f : CanFrame) (sof : Nat) (s : State) : Host.Outcome State Fault Refusal :=
  .next (
    if !canLive s c then s
    else
      let s := canStore c f false sof s
      if canQuiet s.can[c] then s else canRecDown c s)

/-! ### Transmitting (R362 to R368) -/

/-- The arbitration field as a number, the lower wins: base identifier, RTR or SRR, IDE, extension, RTR. A base
identifier stands in bits [10:0] (R359). -/
def arbKey (id : Word) : Nat :=
  let rtr := b2n (bit id 30)
  if bit id 29 then
    fld id 18 11 * 2 ^ 21 + 2 ^ 20 + 2 ^ 19 + fld id 0 18 * 2 + rtr
  else fld id 0 11 * 2 ^ 21 + rtr * 2 ^ 20

/-- Which of two requests goes first: arbitration, then the lower entry (R363). -/
def canBefore (a b : CanReq) : Bool :=
  decide (arbKey a.frame.id < arbKey b.frame.id) ||
    (decide (arbKey a.frame.id = arbKey b.frame.id) && decide (a.entry < b.entry))

/-- The request that the channel offers when the bus is idle. An expired one is no longer offered; one that was in
transmission at its boundary goes on (R363, R364). -/
def canOffer (s : State) (c : Fin 4) : Option CanReq :=
  (s.can[c].reqs.filter (fun r => r.kept || decide (s.scn.cycle ≤ r.cyc + 1))).foldl (fun best r => match best with
    | none => some r
    | some b => if canBefore r b then some r else some b) none

/-- Whether a partition frame may start: in RUN, on a channel that takes part (R151, R355, R414). -/
def canMaySend (s : State) (c : Fin 4) : Bool :=
  canLive s c && !canMute s.can[c] && s.scn.mode = .run && !standing s

/-- A request leaves the channel with its final status, and a request that waited behind it takes its place, unless the
old one ends TX_DONE (R363): the newer one then ends NOT_SENT (log entry 89). The status word describes the newest. -/
def canFinish (c : Fin 4) (r : CanReq) (state err : Nat) (suspect late : Bool) (s : State) : State :=
  let next := s.can[c].waiting.find? (fun w => w.entry = r.entry)
  let s := modCan c (fun x =>
    { x with reqs := x.reqs.filter (fun y => y.entry ≠ r.entry),
             waiting := x.waiting.filter (fun y => y.entry ≠ r.entry) }) s
  match next with
  | some n =>
    if state = 2 then canEnd c n 7 0 false false s
    else modCan c (fun x => { x with reqs := x.reqs ++ [n],
                                     stat := SMap.set 0#32 x.stat n.entry (canStat n.cyc 1 0 false false) }) s
  | none => if r.old then s else canEnd c r state err suspect late s

/-! ### The transmit enable (R51 to R53, R368) -/

/-- The bits of a frame from SOF to its end: those at the nominal rate and those at the data rate, with as much stuffing
as its layout allows (ISO 11898-1, log entry 90). -/
def canBits (f : CanFrame) : Nat × Nat :=
  let n := dlcBytes (bit f.id 31) f.dlc.toNat
  let ext := bit f.id 29
  if bit f.id 31 then
    let head := if ext then 36 else 17
    let crc := if n ≤ 16 then 17 + 6 else 21 + 7
    let fast := 5 + 8 * n + (head + 5 + 8 * n - 1) / 4 - (head - 1) / 4 + 4 + crc
    if f.brs then (head + (head - 1) / 4 + 10, fast) else (head + (head - 1) / 4 + 10 + fast, 0)
  else
    let k := if bit f.id 30 then 0 else 8 * n
    let stuffed := (if ext then 54 else 34) + k
    (stuffed + (stuffed - 1) / 4 + 10, 0)

/-- How long the enable of a frame stands, in TB ticks: its nominal duration at the configured rates, with maximum
stuffing, plus 10 % (R52). A CAN clock of 5 MHz × PLLC_MUL has a period of 20 ÷ PLLC_MUL ticks (R352, R430). Above PLLC_MUL
20 the voted enables are computed wrongly (R440): then the time is the free value `w`. -/
def canEnableTicks (s : State) (x : Can) (f : CanFrame) (w : Word) : Nat :=
  let nbit := (fld x.nbtAct 24 8 + 1) * (1 + (fld x.nbtAct 16 8 + 1) + (fld x.nbtAct 8 7 + 1))
  let dbit := (fld x.dbtAct 24 5 + 1) * (1 + (fld x.dbtAct 16 5 + 1) + (fld x.dbtAct 8 4 + 1))
  let (a, b) := canBits f
  let mul := fld s.clk.divAct 11 5
  if 20 < mul then w.toNat else ((a * nbit + b * dbit) * 22 + mul - 1) / mul

/-- The triad whose voter lanes enable a request: its partition's, or for a non-vital entry the lowest-numbered that runs
(R51, R368). -/
def canEnabler (s : State) (r : CanReq) : Option TriadId := match r.owner with
  | .vital p => (triadOf s p).filter (formed s)
  | .nonvital _ => (fins 5).find? (formed s)

/-- Which lanes' own copies of the schedule have a request's entry as its owner's (R51). A non-vital entry has no owner in
the table of vital destinations. -/
def canLanes (s : State) (c : Fin 4) (r : CanReq) : Vector Bool 3 := match r.owner with
  | .vital p => laneOwners s (.canTx c r.entry) p
  | .nonvital _ => Vector.replicate 3 true

/-- The enable line of a voter lane to a channel's transmitter, as it computes it from the schedule in its own bank and the
released request (R51). The requests stand once in State (log entry 116). -/
def canEnableLine (s : State) (c : Fin 4) (lane : Lane) : Bool := match s.can[c].reqs.find? (·.onWire) with
  | some r => decide (s.tb ≤ s.can[c].enTill) && match r.owner with
    | .vital _ => (canEnabler s r).isSome && s.can[c].enLanes[lane]
    | .nonvital _ => r.enBy.any (formed s) && s.can[c].enLanes[lane]
  | none => false

/-- Whether a channel's transmitter drives its line: the majority of the three enable lines (R51). Otherwise its output
is passive. -/
def canDrives (s : State) (c : Fin 4) : Bool := maj3 (vgen 3 (canEnableLine s c))

/-- The suspect flag of an entry's status word. -/
def canSuspect (s : State) (c : Fin 4) (e : Nat) : Bool := bit (SMap.get 0#32 s.can[c].stat e) 11

/-- CAN_TX_START (R363, R366, R368): the winning request sends SOF, or is removed by its cancel, with what earlier
attempts have shown of a collision. Above PLLC_MUL 20 the stamp of the SOF is computed wrongly (R440): a free value. -/
def execCanTxStart (c : Fin 4) (s : State) : Host.Outcome State Fault Refusal :=
  .next (
    if !canMaySend s c || s.can[c].reqs.any (·.onWire) then s
    else match canOffer s c with
    | none => s
    | some r =>
      if r.cancel then canFinish c r 3 0 (canSuspect s c r.entry) false s
      else match canEnabler s r with
      | none => canFinish c r 7 0 (canSuspect s c r.entry) false s
      | some t =>
        let fast := decide (20 < fld s.clk.divAct 11 5)
        let (w, s) := if fast then draw s else (0#32, s)
        let (v, s) := if fast then draw s else (0#32, s)
        modCan c (fun x =>
          let esi := bit r.frame.id 31 && x.st = .passive
          { x with reqs := x.reqs.map (fun y =>
                     if y.entry = r.entry then
                       { y with onWire := true, enBy := some t, frame := { y.frame with esi := esi } } else y),
                   wireSof := if fast then v.toNat else s.tb, enTill := s.tb + canEnableTicks s x r.frame w, enLanes := canLanes s c r }) s)

/-- Whether an attempt that ended has come past the edge from FDF to res, where the transmitter measures its delay (R354):
a frame that completes and one that only misses its acknowledgement have; lost arbitration and an error in the arbitration
field have not; an error in the control or data field, of stuffing, of form or by another's flag does not say it. -/
def pastFdf : CanEnd → Option Bool
  | .done => some true
  | .arbLost => some false
  | .error n => if n.val = 5 then some true else if n.val = 1 then some false else none

/-- The end of an attempt without a frame: CANCELLED, FAILED for ONE_SHOT, or a retry (R364, R366). -/
def canMissed (c : Fin 4) (r : CanReq) (err : Nat) (suspect : Bool) (s : State) : State :=
  let sus := suspect || canSuspect s c r.entry
  if r.cancel then canFinish c r 3 err sus false s
  else if r.oneShot then canFinish c r 4 err sus false s
  else if s.can[c].waiting.any (fun w => w.entry = r.entry) then canFinish c r 5 err sus false s
  else modCan c (fun x =>
    { x with reqs := x.reqs.map (fun y => if y.entry = r.entry then { y with onWire := false, enBy := none } else y),
             stat := if r.old then x.stat else SMap.set 0#32 x.stat r.entry (canStat r.cyc 1 0 sus false) }) s

/-- CAN_TX_END (R364, R366, R367): the attempt on the wire ends. One that outlasts its enable was cut off when the enable
ended, whatever the command says of it (R51, R52, log entry 90). -/
def execCanTxEnd (c : Fin 4) (e : CanEnd) (suspect : Bool) (s : State) : Host.Outcome State Fault Refusal :=
  .next (match s.can[c].reqs.find? (·.onWire) with
    | none => s
    | some r =>
      let s := canMeasure c r (pastFdf e) s
      if s.can[c].enTill < s.tb then canMissed c r 0 suspect s else
      match e with
      | .done =>
        let s := modCan c (fun x => canSettle { x with txErr := x.txErr - 1, txCnt := satInc x.txCnt,
                                                       suspect := false }) s
        let s := logAdd (0xB00 + 32 * c.val + 8) 1 s
        let s := if canOwnRx s.can[c] then canStore c r.frame true s.can[c].wireSof s else s
        canFinish c r 2 0 (canSuspect s c r.entry) r.cancel s
      | .arbLost => canMissed c r 7 suspect s
      | .error err => canMissed c r err.val suspect s)

/-- CAN_ERROR_DETECTED (R356, R367): TEC and REC move as ISO 11898-1 says, which the command carries; error passive and
bus-off follow. -/
def execCanErrorDetected (c : Fin 4) (tx suspect : Bool) (dTec dRec : Nat) (s : State) :
    Host.Outcome State Fault Refusal :=
  .next (
    if !canLive s c then s
    else
      let quiet := canQuiet s.can[c]
      let s := logAdd (0xB00 + 32 * c.val + 24) 1 (modCan c (fun x =>
        { x with txErr := if quiet then x.txErr else x.txErr + dTec,
                 rxErr := if quiet then x.rxErr else x.rxErr + dRec,
                 errTx := if tx then satInc x.errTx else x.errTx,
                 errRx := if tx then x.errRx else satInc x.errRx }) s)
      if quiet then s else
      let wire := s.can[c].reqs.find? (·.onWire)
      let s := if suspect && tx then
          let first := !s.can[c].suspect
          let s := modCan c (fun x =>
            { x with collide := satInc x.collide, suspect := true,
                     stat := match wire with
                       | some r =>
                         if r.old || x.waiting.any (fun w => w.entry = r.entry) then x.stat
                         else SMap.set 0#32 x.stat r.entry (SMap.get 0#32 x.stat r.entry ||| 0x800#32)
                       | none => x.stat }) s
          if first then nvEvent Ev.canIdCollision (w32 c.val) (w32 ((wire.map (·.entry)).getD 0)) s else s
        else s
      if 255 < s.can[c].txErr then
        let s := modCan c (fun x => { x with st := .busOff, busOffs := satInc x.busOffs, recovering := canAutoRec x }) s
        let s := logAdd (0xB00 + 32 * c.val + 16) 1 (canDropAll c s)
        nvEvent Ev.canBusOff (w32 c.val) 0#32 s
      else if s.can[c].st = .active && decide (127 < s.can[c].txErr ∨ 127 < s.can[c].rxErr) then
        nvEvent Ev.canErrPassive (w32 c.val) 0#32 (modCan c (fun x => { x with st := .passive }) s)
      else s)

/-- CAN_INTEGRATION (R353): 11 recessive bits. A channel whose counts are still high enters error passive
(R356); one that only listens keeps no request (R364). -/
def execCanIntegration (c : Fin 4) (s : State) : Host.Outcome State Fault Refusal :=
  .next (
    if s.can[c].st = .integrating && canMayRun s c then
      let s := modCan c (fun x => { x with st := canJoined x }) s
      let s := if s.can[c].st = .listen then canDropAll c s else s
      if s.can[c].st = .passive then nvEvent Ev.canErrPassive (w32 c.val) 0#32 s else s
    else s)

/-- CAN_BUS_OFF_RECOVERY (R356): the channel takes part again with both counts zero (ISO 11898-1, log entry 17). -/
def execCanBusOffRecovery (c : Fin 4) (s : State) : Host.Outcome State Fault Refusal :=
  .next (
    if s.can[c].st = .busOff && s.can[c].recovering then
      modCan c (fun x => let x := { x with txErr := 0, rxErr := 0, recovering := false }
                         { x with st := canJoined x }) s
    else s)

/-- The BAR0 offset of CAN_n_CTRL (R373). -/
def canCtrl (c : Fin 4) : Nat := 0x5840 + 0x200 * c.val

/-- CAN_RECOVER (R356, R373), a write to CAN_n_CTRL: recovery starts; ignored outside bus-off. -/
def execCanRecover (c : Fin 4) (s : State) : Host.Outcome State Fault Refusal :=
  .next (onReg (canCtrl c) (fun s =>
    if s.can[c].st = .busOff then modCan c (fun x => { x with recovering := true }) s else s) s)

/-- CAN_CLR_MAX (R373), a write to CAN_n_CTRL. -/
def execCanClrMax (c : Fin 4) (s : State) : Host.Outcome State Fault Refusal :=
  .next (onReg (canCtrl c) (modCan c (fun x => { x with maxFill := 0#13 })) s)

/-- TB at the boundary at which a request expires, if that is the next one. -/
def canExpiryTb (r : CanReq) (s : State) : State :=
  if s.scn.cycle = r.cyc + 1 then advanceTo s.scn.nextB s else s

/-- CAN_REQUEST_EXPIRY (R363): a pending request not in transmission ends EXPIRED at the boundary that ends the cycle
after its release, and so does one that still waits behind a transmission. -/
def execCanRequestExpiry (c : Fin 4) (entry : Nat) (s : State) : Host.Outcome State Fault Refusal :=
  .next (match s.can[c].reqs.find? (fun r => r.entry = entry && !r.onWire && !r.kept) with
    | some r =>
      if s.scn.cycle < r.cyc + 1 then s else canFinish c r 6 0 (canSuspect s c entry) false (canExpiryTb r s)
    | none => match s.can[c].waiting.find? (fun r => r.entry = entry) with
      | some r =>
        if s.scn.cycle < r.cyc + 1 then s
        else canEnd c r 6 0 false false (modCan c (fun x =>
          { x with waiting := x.waiting.filter (fun y => y.entry ≠ entry),
                   reqs := x.reqs.map (fun y => if y.entry = entry then { y with old := true } else y) })
          (canExpiryTb r s))
      | none => s)

/-! ### Emit (R144, R151, R362) -/

/-- The requests of a partition are released at its Emit, in RUN; in a HOLD stepped cycle nothing is. -/
def canEmit (p : PartId) (hold : Bool) (s : State) : State :=
  forEach (fins 4) (fun c s =>
    let mine := s.can[c].ctl.filter (fun x => ownerOf s (.canTx c x.1) = some p)
    let s := modCan c (fun x => { x with ctl := x.ctl.filter (fun y => !mine.any (fun m => m.1 = y.1)) }) s
    if hold then s else forEach mine (fun x s => canRelease c x.1 x.2 (.vital p) s) s) s

/-- A partition enters Solve: a control word stored in an earlier cycle, whose Emit never came, releases nothing (R362). -/
def canEnter (p : PartId) (s : State) : State :=
  forEach (fins 4) (fun c s => modCan c (fun x =>
    { x with ctl := x.ctl.filter (fun y => ownerOf s (.canTx c y.1) ≠ some p) }) s) s

/-! ### The boundary (R353, R358, R360, R369) -/

/-- The snapshot at B. A request in transmission past the cycle after its release no longer expires (R363). -/
def canSnapshot (s : State) : State :=
  forEach (fins 4) (fun c s => modCan c (fun x =>
    let n := BitVec.ofNat 13 x.buf.length
    { x with reqs := x.reqs.map (fun r =>
               { r with kept := r.kept || (r.onWire && decide (r.cyc + 2 ≤ s.scn.cycle)) }), snap := x.buf, snapSt := x.stat, snapLost := x.lostSince, buf := [], lostSince := 0, ovfRaised := false,
             fill := n, maxFill := if !bit s.clk.gateClosed c.val && x.maxFill.toNat < n.toNat then n else x.maxFill }) s) s

/-- CAN_n_NBT as a write leaves it: reserved bits discarded, and an NTSEG1 of 1, which R352 does not allow, ignored. -/
def canNbt (v old : Word) : Word :=
  let v := v &&& 0xFFFF7F7F#32
  if fld v 16 8 = 0 then (v &&& 0xFF00FFFF#32) ||| (old &&& 0x00FF0000#32) else v

/-- The checks of R353 on the shadows. -/
def canCfgBad (x : Can) : Bool :=
  let nbit := (fld x.nbtSh 24 8 + 1) * (1 + (fld x.nbtSh 16 8 + 1) + (fld x.nbtSh 8 7 + 1))
  let dbit := (fld x.dbtSh 24 5 + 1) * (1 + (fld x.dbtSh 16 5 + 1) + (fld x.dbtSh 8 4 + 1))
  decide (nbit < 80) || decide (dbit < 10) || decide (nbit < dbit) || decide (fld x.nbtSh 8 7 < fld x.nbtSh 0 7) ||
    decide (fld x.dbtSh 8 4 < fld x.dbtSh 0 4) || (bit x.cfgSh 2 && decide (127 < fld x.tdcSh 0 7))

/-- Whether a channel's shadows ask for a change. -/
def canChanged (x : Can) : Bool :=
  x.cfgSh ≠ x.cfgAct || x.nbtSh ≠ x.nbtAct || x.dbtSh ≠ x.dbtAct || x.tdcSh ≠ x.tdcAct

/-- The shadows return to the active values. -/
def canShadowBack (x : Can) : Can :=
  { x with cfgSh := x.cfgAct, nbtSh := x.nbtAct, dbtSh := x.dbtAct, tdcSh := x.tdcAct }

/-- The active values take the shadows. -/
def canTake (x : Can) : Can :=
  { x with cfgAct := x.cfgSh, nbtAct := x.nbtSh, dbtAct := x.dbtSh, tdcAct := x.tdcSh }

/-- A frame on the wire is cut off, as a failed attempt of its request (R353). -/
def canCut (c : Fin 4) (s : State) : State := match s.can[c].reqs.find? (·.onWire) with
  | some r => canMissed c r 0 false (canMeasure c r none s)
  | none => s

/-- The channel starts with its active configuration: it is off, integrates, or is still bus-off, since TEC and REC are
kept and only recovery leaves bus-off, in which no request stays (R353, R355, R356, R364, R444). -/
def canRestart (c : Fin 4) (s : State) : State :=
  let s := modCan c (fun x =>
    let out := decide (255 < x.txErr)
    { x with st := if !canMayRun s c then .off else if out then .busOff else .integrating,
             recovering := out && (x.recovering || canAutoRec x) }) s
  if s.can[c].st = .busOff then canDropAll c s else s

/-- The reinitialisation of R353, a frame on the wire having been cut off. -/
def canReinit (c : Fin 4) (s : State) : State :=
  let s := canRestart c s
  let s := if canListen s.can[c] then canDropAll c s else s
  nvEvent Ev.canReinit (w32 c.val) 0#32 s

/-- The configuration of one channel at B; `pll` says that this boundary changes PLLC_MUL, which reinitialises every
channel (R440). A frame cut off has measured its delay by the settings it was sent with (R354). -/
def canApply (pll : Bool) (c : Fin 4) (s : State) : State :=
  if !hasCan s c then s
  else
    let x := s.can[c]
    let back := x.clkIo && !s.clk.srcIo
    let changed := canChanged x
    let bad := changed && canCfgBad x
    let again := (changed && !bad) || pll || back
    let s := if again then canCut c s else s
    let s := if bad then nvEvent Ev.canCfgRefused (w32 c.val) 0#32 (modCan c canShadowBack s)
      else modCan c canTake s
    let s := if back then modCan c (fun x => { x with clkIo := false }) s else s
    if again then canReinit c s else s

/-- TB runs from IO (R369): every request ends NOT_SENT, and CAN_PRECISION_LOST is raised once. -/
def canOnIo (s : State) : State :=
  forEach (fins 4) (fun c s =>
    if !hasCan s c || s.can[c].clkIo then s
    else
      let s := canDropAll c (modCan c (fun x => { x with clkIo := true }) s)
      if s.can[c].st = .off then s else nvEvent Ev.canPrecisionLost (w32 c.val) 0#32 s) s

/-- The first application of the descriptor's settings at B of cycle 1 (R355). -/
def canStart (s : State) : State :=
  forEach (fins 4) (fun c s =>
    if !hasCan s c then s
    else
      let s := if canCfgBad s.can[c] then nvEvent Ev.canCfgRefused (w32 c.val) 0#32 (modCan c canShadowBack s)
        else modCan c canTake s
      let s := canRestart c (modCan c (fun x => { x with clkIo := s.clk.srcIo }) s)
      if s.clk.srcIo && s.can[c].st ≠ .off then nvEvent Ev.canPrecisionLost (w32 c.val) 0#32 s else s) s

/-- Every channel goes off in SHUTDOWN (R355, R488). -/
def canStop (s : State) : State :=
  forEach (fins 4) (fun c s => modCan c (fun x => { x with st := .off }) (canDropAll c s)) s

/-! ### Agree (R360) -/

/-- The 80 bytes of a receive entry (R359). -/
def canRxBytes (e : CanRx) : List Byte :=
  leBytes 4 e.frame.id.toNat ++
  leBytes 4 (e.frame.dlc.toNat + 16 * b2n e.frame.brs + 32 * b2n e.frame.esi + 64 * b2n e.own +
    128 * b2n e.lostBefore + 256 * e.frame.data.length) ++
  leBytes 4 e.sof ++ leBytes 2 (e.sof / 2 ^ 32) ++ leBytes 2 e.seq.toNat ++
  e.frame.data ++ List.replicate (64 - e.frame.data.length) 0#8

/-- The bytes of a CAN area of a capacity, and how many entries it could not take. -/
def canAreaBytes (s : State) (c : Fin 4) (cap : Nat) : List Byte × Nat :=
  let x := s.can[c]
  let es := x.snap.take cap
  (leBytes 4 es.length ++ leBytes 4 (x.snap.length - es.length) ++ leBytes 4 x.snapLost ++ leBytes 4 s.scn.cycle ++
    (List.range 256).flatMap (fun e => leBytes 4 (SMap.get 0#32 x.snapSt e).toNat) ++ es.flatMap canRxBytes,
   x.snap.length - es.length)

/-- The snapshot into one partition's areas, in the banks given. An area that does not lie whole in the partition's region
or quota window is not written (R360, log entry 92). The pages written enter the log of dirty pages in every mode
(R360, log entry 131). -/
def canAreas (who : Byte) (areas : List CanArea) (base size : Nat) (banks : List Lane) (s : State) : State :=
  let areas := areas.filter (fun a => decide (a.ofs + (canAreaBytes s a.chan a.cap).1.length ≤ size))
  let full := areas.find? (fun a => hasCan s a.chan && decide ((canAreaBytes s a.chan a.cap).2 ≠ 0))
  let s := forEach areas (fun a s =>
    if hasCan s a.chan then
      forEach banks (fun l => bankFill l (base + a.ofs) (canAreaBytes s a.chan a.cap).1) s
    else s) s
  match full with
  | some a => nvEventFor Ev.canAreaFull who (w32 a.chan.val) 0#32 s
  | none => s

/-- The quota window of the core of a non-vital partition: bank, first byte and bytes (R91). -/
def nvWindow (s : State) (k : NvId) : Option (Lane × Nat × Nat) :=
  (nvDesc s k).bind (fun d =>
    (quotaBank s.tri.nvqAct[d.core]).map (fun b =>
      (b, fld s.tri.nvqAct[d.core] 0 12 * 1048576, fld s.tri.nvqAct[d.core] 16 12 * 1048576)))

/-- The snapshot into every CAN area (R360). -/
def canAgree (s : State) : State :=
  let s := forEach (fins 5) (fun p s => match partDesc s p with
    | some d => canAreas (partWho p) d.canAreas (d.baseMib * 1048576) (d.sizeMib * 1048576) [0, 1, 2] s
    | none => s) s
  forEach (fins 8) (fun k s => match nvDesc s k, nvWindow s k with
    | some d, some (b, base, size) => canAreas (nvWho k) d.canAreas base size [b] s
    | _, _ => s) s

end Sys2Proof.Machine
end

