-- ==== Sys2Proof/Machine/Ubuno.lean ====
section
/-!
DEFINITION. The Ubuno buses (R304 to R350): the layout and its checks, bus cycles and misses, the judging of frames,
keeper and coldstart, what the module sends, jammed channels, waypoints, admission at B, and what Agree writes.
-/
namespace Sys2Proof.Machine

open Sys2Proof

/-! ### The layout (R307 to R309) -/

def UbLayout.en (l : UbLayout) : Bool := bit l.cfg 0
def UbLayout.chA (l : UbLayout) : Bool := bit l.cfg 1
def UbLayout.chB (l : UbLayout) : Bool := bit l.cfg 2
def UbLayout.modId (l : UbLayout) : Nat := fld l.cfg 3 1
def UbLayout.takeover (l : UbLayout) : Bool := bit l.cfg 4
def UbLayout.coldEn (l : UbLayout) : Bool := bit l.cfg 5
def UbLayout.cycUs (l : UbLayout) : Nat := fld l.cyc 0 16
def UbLayout.slots (l : UbLayout) : Nat := fld l.static 0 11
def UbLayout.slotUt (l : UbLayout) : Nat := fld l.static 16 12
def UbLayout.minis (l : UbLayout) : Nat := fld l.dynseg 0 13
def UbLayout.miniUt (l : UbLayout) : Nat := fld l.dynseg 16 8
def UbLayout.lpUt (l : UbLayout) : Nat := fld l.timing 0 8
def UbLayout.accUt (l : UbLayout) : Nat := fld l.timing 8 8
def UbLayout.jamCyc (l : UbLayout) : Nat := fld l.timing 16 4
def UbLayout.payloadMax (l : UbLayout) : Nat := fld l.timing 24 8
def UbLayout.ofsMax (l : UbLayout) : Nat := fld l.sync 0 8
def UbLayout.coldSlot (l : UbLayout) : Nat := fld l.cold 0 11
def UbLayout.listenCyc (l : UbLayout) : Nat := fld l.cold 16 4

/-- A layout without the reserved bits of its words (R11, R346). -/
def UbLayout.masked (l : UbLayout) : UbLayout :=
  { cfg := l.cfg &&& 0x3F#32, cyc := l.cyc &&& 0xFFFF#32, static := l.static &&& 0x0FFF07FF#32,
    dynseg := l.dynseg &&& 0x00FF1FFF#32, timing := l.timing &&& 0xFF0FFFFF#32, sync := l.sync &&& 0xFFFF00FF#32,
    cold := l.cold &&& 0x000F07FF#32 }

/-- The length of a frame with `n` payload bytes in microticks (R308). -/
def frameUt (n : Nat) : Nat := (n + 31 + 4) / 5

/-- The conditions of R308. -/
def UbLayout.ok (l : UbLayout) : Bool :=
  decide (l.accUt ≤ l.lpUt) &&
  decide (136 ≤ l.payloadMax ∧ l.payloadMax ≤ 254) &&
  decide (l.lpUt + frameUt l.payloadMax + l.accUt + 2 ≤ l.slotUt) &&
  decide (l.minis = 0 ∨ l.lpUt + l.accUt + 2 ≤ l.miniUt) &&
  decide (l.slots * l.slotUt + l.minis * l.miniUt + 2 * l.ofsMax + 25 ≤ 25 * l.cycUs) &&
  decide (l.coldSlot ≤ l.slots)

/-- The minislots that a frame with `n` payload bytes takes (R329). -/
def UbLayout.span (l : UbLayout) (n : Nat) : Nat :=
  if l.miniUt = 0 then 0 else (l.lpUt + frameUt n + l.accUt + 2 + l.miniUt - 1) / l.miniUt

/-- The TB ticks of a microtick: UTDIV, which must be 4 (R306, R430, R440). -/
def utTicks (s : State) : Nat := fld s.clk.divAct 8 3

/-- T_bus in microticks (R306). -/
def UbLayout.cycUt (l : UbLayout) : Nat := 25 * l.cycUs

/-- The active layout of a bus. -/
def ubLay (s : State) (b : Fin 2) : UbLayout := s.ub[b].layAct

/-- The end of the running bus cycle (R306). -/
def ubEndAt (s : State) (b : Fin 2) : Nat := s.ub[b].cycFrom + utTicks s * (ubLay s b).cycUt

/-- The gate bit of a bus (R441). -/
def ubGate (b : Fin 2) : Nat := 4 + b.val

/-- Whether the clock of a bus is gated (R443). -/
def ubGated (s : State) (b : Fin 2) : Bool := bit s.clk.gateClosed (ubGate b)

/-- Whether a bus keeps cycles: present, enabled, and in a mode in which boundaries occur (R140, R151). -/
def ubRuns (s : State) (b : Fin 2) : Bool :=
  hasUb s b && s.ub[b].st ≠ .off && (ubLay s b).en && s.scn.mode.bounded && decide (0 < s.scn.cycle)

/-- The part of the I/O descriptor for a bus in the image that runs. -/
def ubDesc (s : State) (b : Fin 2) : Option UbDesc := s.olc.active.map (fun im => im.io.ub[b])

/-- The station of the table with an ID. -/
def stnOf (s : State) (b : Fin 2) (id : Nat) : Option Station :=
  (ubDesc s b).bind (fun d => d.stations.find? (fun x => x.id = id))

/-- The station that owns a static slot, or whose minislot a dynamic ID is (R318, R327). -/
def stnOfId (s : State) (b : Fin 2) (id : Nat) : Option Station :=
  if id < 2048 then (ubDesc s b).bind (fun d => d.stations.find? (fun x => decide (x.first ≤ id ∧ id < x.first + x.count)))
  else stnOf s b (id - 2048)

/-- The run-time record of a station. -/
def stnRt (s : State) (b : Fin 2) (id : Nat) : Option StnRt := s.ub[b].stations.find? (fun x => x.id = id)

/-- A change of one station's record. -/
def modStn (b : Fin 2) (id : Nat) (f : StnRt → StnRt) (s : State) : State :=
  modUb b (fun x => { x with stations := x.stations.map (fun r => if r.id = id then f r else r) }) s

/-! ### Frames (R310 to R312) -/

/-- Byte `k` of a received frame. -/
def UbFrame.byte (f : UbFrame) (k : Nat) : Nat := (f.bytes.getD k 0#8).toNat

/-- TYPE of the header (R311). -/
def UbFrame.typ (f : UbFrame) : Nat := f.byte 0 / 16

/-- ID of the header. -/
def UbFrame.id (f : UbFrame) : Nat := (f.byte 1 * 256 + f.byte 2) % 8192

/-- SENDER of the header. -/
def UbFrame.sender (f : UbFrame) : Nat := (f.byte 4 * 256 + f.byte 5) % 2048

/-- CYCLE of the header. -/
def UbFrame.cycle (f : UbFrame) : Nat := f.byte 6

/-- The payload: what stands between the header and the CRC. -/
def UbFrame.payload (f : UbFrame) : List Byte := (f.bytes.drop 8).take (f.bytes.length - 12)

/-- The CRC is correct over header and payload, and LEN matches the bytes received (R310, R314). -/
def UbFrame.crcOk (f : UbFrame) : Bool :=
  let n := f.bytes.length
  decide (12 ≤ n) && decide (f.bytes.drop (n - 4) = beBytes 4 (crc32 (f.bytes.take (n - 4))).toNat) &&
    decide (f.byte 3 + 12 = n)

/-- The bytes of a frame on a channel: header, payload and CRC, the most significant byte of a field first. -/
def ubBytes (chB : Bool) (typ id sender cycle : Nat) (payload : List Byte) : List Byte :=
  let body := [BitVec.ofNat 8 (typ * 16 + (if chB then 8 else 0))] ++ beBytes 2 id ++ [BitVec.ofNat 8 payload.length] ++
    beBytes 2 sender ++ [BitVec.ofNat 8 cycle, 0#8] ++ payload
  body ++ beBytes 4 (crc32 body).toNat

/-- The bytes that the module sends on a channel. -/
def UbTx.bytes (x : UbTx) (chB : Bool) : List Byte := ubBytes chB x.typ x.id x.sender x.cycle x.payload

/-- The code groups of a frame on a channel (R310). -/
def UbTx.groups (x : UbTx) (chB : Bool) : List UbGroup :=
  List.replicate 16 .leadIn ++ [.start] ++ (x.bytes chB).map .data ++ [.stop, .stop]

/-! ### Misses and loss (R333) -/

/-- A station is lost: event, ADMIT bit clear, substitutes and error block at the next Agree. A JOIN that came before
the loss counts no more. -/
def ubLose (b : Fin 2) (id : Nat) (s : State) : State :=
  match stnRt s b id with
  | none => s
  | some r =>
    if r.admitted then
      nvEvent (ubEv b Ev.ublStationLost) (w32 id) (w32 ((stnOf s b id).map (·.first) |>.getD 0))
        (modStn b id (fun r => { r with admitted := false, lost := true, lostSince := true, join := none, run := 0 }) s)
    else s

/-- A station that delivered nothing in the running bus cycle misses it, and is lost after LOST_N in a row. -/
def ubMiss (b : Fin 2) (id : Nat) (s : State) : State :=
  match stnRt s b id, stnOf s b id with
  | some r, some d =>
    if !r.admitted then s
    else if r.got then modStn b id (fun r => { r with run := 0 }) s
    else
      let s := modStn b id (fun r => { r with run := r.run + 1, missed := satInc r.missed }) s
      let s := logAdd (stationOfs b.val id + 4) 1 s
      if d.lostN ≤ r.run + 1 then ubLose b id s else s
  | _, _ => s

/-! ### Jammed channels (R336, R532) -/

/-- Channel A or B among two. -/
def chIx (chB : Bool) : Fin 2 := if chB then 1 else 0

/-- Whether a channel counts as jammed in the running bus cycle: activity unbroken for too long, or frame errors in more
than half of the static slots that delivered a valid frame on the other channel (R336). -/
def ubJammed (x : Ub) (chB : Bool) : Bool :=
  let own := x.jam[chIx chB]
  let other := x.jam[chIx !chB].good
  own.busy || decide (other.length < 2 * other.countP (fun n => own.bad.contains n))

/-- A channel is declared jammed. -/
def ubDeclareJam (b : Fin 2) (chB : Bool) (s : State) : State :=
  nvEvent (ubEv b Ev.ublChannelJam) 0#32 0#32
    (modUb b (fun x => if chB then { x with jamB := true } else { x with jamA := true }) s)

/-- A channel is restored. -/
def ubRestore (b : Fin 2) (chB : Bool) (s : State) : State :=
  nvEvent (ubEv b Ev.ublChannelOk) 0#32 0#32
    (modUb b (fun x => if chB then { x with jamB := false, downB := false }
                       else { x with jamA := false, downA := false }) s)

/-- Whether a channel is declared jammed. -/
def ubIsJam (x : Ub) (chB : Bool) : Bool := if chB then x.jamB else x.jamA

/-- Whether a channel is out of use, jammed or without its SFP module, and can come back. -/
def ubIsOut (x : Ub) (chB : Bool) : Bool :=
  if chB then x.sfpB && (x.jamB || x.downB) else x.sfpA && (x.jamA || x.downA)

/-- Nothing counted of a bus cycle. -/
def UbJam.fresh (j : UbJam) : UbJam := { j with good := [], bad := [], busy := false }

/-- What a bus cycle that ends counts toward the declaration of a jam and the restoration of a channel. -/
def ubJamEnd (b : Fin 2) (s : State) : State :=
  let next := fun (chB : Bool) =>
    let j := (s.ub[b].jam[chIx chB]).fresh
    if ubJammed s.ub[b] chB then { j with run := j.run + 1, clean := 0 } else { j with run := 0, clean := j.clean + 1 }
  let s := modUb b (fun x => { x with jam := #v[next false, next true] }) s
  forEach [false, true] (fun chB s =>
    let j := s.ub[b].jam[chIx chB]
    if !ubIsJam s.ub[b] chB && decide (0 < j.run ∧ (ubLay s b).jamCyc ≤ j.run) then ubDeclareJam b chB s
    else if ubIsOut s.ub[b] chB && decide (16 ≤ j.clean) then ubRestore b chB s
    else s) s

/-- What the end of the running bus cycle counts: misses, and the state of the channels. -/
def ubClose (b : Fin 2) (s : State) : State :=
  if s.ub[b].closed || !hasUb s b then s
  else
    let s := modUb b (fun x => { x with closed := true }) (forEach (s.ub[b].stations.map (·.id)) (ubMiss b) s)
    if ubGated s b then s else ubJamEnd b s

/-- STATION_LOST (R333): the end of the station's last slot in its LOST_N-th missed cycle. -/
def execStationLost (b : Fin 2) (id : Nat) (s : State) : Host.Outcome State Fault Refusal :=
  .next (match stnRt s b id, stnOf s b id with
    | some r, some d =>
      if r.admitted && !r.got && decide (d.lostN ≤ r.run + 1) && !s.ub[b].closed then
        ubMiss b id (advanceTo (s.ub[b].cycFrom + utTicks s * ((d.first + d.count - 1) * (ubLay s b).slotUt)) s)
      else s
    | _, _ => s)

/-! ### Keeper, foreign keeper, restart (R321 to R323, R309, R444) -/

/-- The module becomes keeper (R322). -/
def ubKeep (b : Fin 2) (s : State) : State :=
  nvEvent (ubEv b Ev.ubKeeper) 0#32 0#32
    (modUb b (fun x => { x with st := .keeper, claim := 0, count := 0, keeperOfs := 0#16,
                                keeperSlot := BitVec.ofNat 11 x.layAct.coldSlot, foreignRaised := false }) s)

/-- The new ACTIVE of a twin is keeper and goes on with the count that it has taken from SYNC (R343). -/
def ubKeepOn (b : Fin 2) (s : State) : State :=
  let n := s.ub[b].busCyc
  modUb b (fun x => { x with busCyc := n, count := 1 }) (ubKeep b s)

/-- The module yields to another keeper (R323). -/
def ubForeign (b : Fin 2) (s : State) : State :=
  let raised := s.ub[b].foreignRaised
  let s := modUb b (fun x => { x with st := .foreign, claim := 0, heard := true, foreignRaised := true }) s
  if raised then s else nvEvent (ubEv b Ev.ubForeignKeeper) 0#32 (s.ub[b].keeperSlot.setWidth 32) s

/-- The module listens on a bus before it coldstarts (R322). -/
def ubListen (b : Fin 2) (s : State) : State :=
  modUb b (fun x => { x with st := .listening, claim := 0, listenFrom := s.tb, heard := false, keeperSlot := 0#11,
                             keeperOfs := 0#16, foreignRaised := false, claimSent := false, sent := none }) s

/-- A claim starts at claim 1 (R322, R323). Its first COLDSTART goes out in the first cycle whose sync slot starts from
now on. -/
def ubClaim (b : Fin 2) (s : State) : State :=
  modUb b (fun x => { x with st := .coldstart, claim := 1, claimFrom := s.tb, claimSent := false, heard := false,
                             lowSeen := false, errSeen := false }) s

/-- A claim cycle ends (R322), watched from its start, a reading of the model (log entry 107): the module yields, backs off, becomes keeper, or goes on with its claim. -/
def ubClaimEnd (b : Fin 2) (s : State) : State :=
  let x := s.ub[b]
  let s := modUb b (fun x => { x with claimSent := false, lowSeen := false, errSeen := false }) s
  if x.lowSeen then ubForeign b s
  else if x.errSeen then
    nvEvent (ubEv b Ev.ubColdCollision) 0#32 (w32 (ubLay s b).coldSlot)
      (modUb b (fun x => { x with claim := 0, backoffFrom := s.tb, heard := false }) s)
  else if x.claim = 3 then ubKeep b s
  else modUb b (fun x => { x with claim := x.claim + 1 }) s

/-- The bus restarts: every admitted station is lost, and the module listens, or is off (R309, R444). -/
def ubRestart (b : Fin 2) (s : State) : State :=
  let s := forEach (s.ub[b].stations.map (·.id)) (ubLose b) s
  let s := modUb b (fun x => { x with busCyc := 0#32, count := 0, closed := true, jam := vmap UbJam.fresh x.jam,
                                      keeperSlot := 0#11, keeperOfs := 0#16, claimSent := false, sent := none }) s
  if !(ubLay s b).en then modUb b (fun x => { x with st := .off }) s
  else if standing s then modUb b (fun x => { x with st := .standby }) s
  else ubListen b s

/-! ### Bus cycles (R306, R328, R344, R350) -/

/-- The next buffers of a partition's slots and minislots become current (R328), valid to the end of the cycle after that of
the Emit that has ended. -/
def ubCopy (b : Fin 2) (p : PartId) (s : State) : State :=
  let dests : List Dest := match s.olc.active with
    | some im => im.owners.filterMap (fun o => if o.owner = p then some o.dest else none)
    | none => []
  let bases := dests.filterMap (fun d => match d with
    | .ubSlot c n => if c = b then some (0x100 * n) else none
    | .ubMini c m => if c = b then some (0x100000 + 0x100 * m) else none
    | _ => none)
  let valid := some (s.ub[b].copyCyc[p] + 1)
  modUb b (fun x =>
    { x with cur := bases.foldl (fun m o => putBytes m o (getBytes x.next o 256)) x.cur,
             copyDue := vset x.copyDue p false, curValid := vset x.curValid p valid,
             dyn := x.dyn.map (fun r => if r.part = p then { r with ready := true } else r) }) s

/-- Whether BUS_CYC counts in the bus cycle that starts: the module is keeper, or has taken a keeper's count from SYNC,
which it keeps while it claims the bus from it (R306, R323). -/
def ubCounts (x : Ub) : Bool :=
  x.st = .keeper || ((x.st = .foreign || x.st = .standby || x.st = .coldstart) && x.keeperSlot ≠ 0#11)

/-- A silent keeper that hears no other keeper for a bus cycle judges by its own count again. A triad runs again on a bus
that was silent (R339): a keeper heard meanwhile is found under R323, else the module goes
on as keeper, a choice of the model (log entry 104). -/
def ubWake (b : Fin 2) (s : State) : State :=
  if !s.ub[b].silentRaised then s
  else if !(fins 5).any (formed s) then
    modUb b (fun x => { x with heard := x.heard && x.st ≠ .keeper,
                               keeperSlot := if x.st = .keeper && !x.heard then BitVec.ofNat 11 x.layAct.coldSlot
                                             else x.keeperSlot }) s
  else
    let s := modUb b (fun x => { x with silentRaised := false }) s
    if s.ub[b].st ≠ .keeper then s
    else if s.ub[b].heard then ubForeign b s
    else modUb b (fun x => { x with keeperSlot := BitVec.ofNat 11 x.layAct.coldSlot, keeperOfs := 0#16 }) s

/-- What the start of a bus cycle brings (R306, R322, R323, R328, R329, R338, R339, R350). A claim cycle whose end has
not been commanded ends here. -/
def ubCycle (b : Fin 2) (at_ : Nat) (atB : Bool) (s : State) : State :=
  let s := advanceTo at_ (ubClose b s)
  let s := if s.ub[b].st = .coldstart && s.ub[b].claimSent then ubClaimEnd b s else s
  let s := ubWake b s
  let first := s.ub[b].st = .keeper && s.ub[b].count = 0
  let s := modUb b (fun x =>
    { x with cycFrom := at_, cycAtB := atB, cycNo := s.scn.cycle, closed := false, minis := 0, lag := 0, held := none,
             lowSeen := false, errSeen := false, heardRx := [],
             busCyc := if first then 0#32 else if ubCounts x then x.busCyc + 1#32 else x.busCyc,
             count := if x.st = .keeper then x.count + 1 else x.count,
             stations := x.stations.map (fun r => { r with got := false }),
             dynLeft := vgen 5 (fun p => x.dynAct[p].toNat),
             wpAct := x.wp, wpFired := 0#8, sent := none }) s
  let s := forEach (fins 5) (fun p s => if s.ub[b].copyDue[p] then ubCopy b p s else s) s
  let s := if s.clk.srcIo && !s.ub[b].precRaised then
      nvEvent (ubEv b Ev.ubPrecisionLost) 0#32 0#32 (modUb b (fun x => { x with precRaised := true }) s)
    else if !s.clk.srcIo then modUb b (fun x => { x with precRaised := false }) s
    else s
  if s.ub[b].st = .foreign then
    if !s.ub[b].heard then ubListen b s
    else if (ubLay s b).takeover && s.ub[b].keeperSlot ≠ 0#11 &&
        decide ((ubLay s b).coldSlot < s.ub[b].keeperSlot.toNat) then
      ubClaim b s
    else modUb b (fun x => { x with heard := false }) s
  else s

/-- BUS_CYCLE_START (R306): at B, and every T_bus after it until the next B. -/
def execBusCycleStart (b : Fin 2) (s : State) : Host.Outcome State Fault Refusal :=
  .next (
    if !ubRuns s b then s
    else if s.ub[b].cycNo < s.scn.cycle then ubCycle b s.scn.bTb true s
    else
      let at_ := ubEndAt s b
      if at_ < s.scn.nextB then ubCycle b at_ false s else s)

/-- WAYPOINT (R344). -/
def execWaypoint (b : Fin 2) (k : Fin 8) (s : State) : Host.Outcome State Fault Refusal :=
  .next (
    let x := s.ub[b]
    let w := x.wpAct[k]
    let ofs := fld w 0 19
    if ubRuns s b && !ubGated s b && bit w 31 && (bit w 30 || x.cycAtB) && decide (ofs < (ubLay s b).cycUt) &&
        !bit x.wpFired k.val && x.cycNo = s.scn.cycle then
      let s := advanceTo (x.cycFrom + utTicks s * ofs) s
      let s := modUb b (fun x => { x with wpCap := vset x.wpCap k (w32 s.tb), wpSt := bitSet x.wpSt k.val true,
                                          wpFired := bitSet x.wpFired k.val true }) s
      signalVec (vecOf (BitVec.ofNat 4 (fld w 20 4))) s
    else s)

/-! ### Receiving (R314, R315) -/

/-- Whether a channel of a bus hears: enabled, with a usable SFP module (R315, R532). -/
def ubHears (x : Ub) (chB : Bool) : Bool := if chB then x.layAct.chB && x.sfpB else x.layAct.chA && x.sfpA

/-- Whether a channel of a bus delivers: it hears, and is neither jammed nor still out. -/
def ubDelivers (x : Ub) (chB : Bool) : Bool :=
  ubHears x chB && if chB then !x.jamB && !x.downB else !x.jamA && !x.downA

/-- The sender ID of the other module of a twin (R311, R341). -/
def ubPeer (s : State) (b : Fin 2) : Nat := 0x400 + (1 - (ubLay s b).modId)

/-- Whether a frame comes from the other module of a twin. -/
def ubFromPeer (s : State) (b : Fin 2) (f : UbFrame) : Bool := s.rck.twinEnAct && f.sender = ubPeer s b

/-- Whether a frame's place is a sync slot of its SENDER (R307, R314, R321, R342): a coldstart station's own slot, or a
slot that the tables give to nobody; the other module's, for a STANDBY the slot in which its keeper sends. No table names
a station's or the other module's sync slot: a choice of the model (log entry 106). -/
def ubSyncPlace (s : State) (b : Fin 2) (f : UbFrame) : Bool :=
  let x := s.ub[b]
  decide (f.place ≤ x.layAct.slots ∧ f.place ≠ x.layAct.coldSlot) && (ownerOf s (.ubSlot b f.place)).isNone &&
  match stnOfId s b f.place with
  | some d => f.sender = d.id && d.cold
  | none =>
    if ubFromPeer s b f then x.st ≠ .standby || x.keeperSlot = 0#11 || decide (f.place = x.keeperSlot.toNat)
    else (stnOf s b f.sender).any (·.cold)

/-- Whether SENDER owns a static slot as a sender of data: a station, or a partition of the other module. -/
def ubSlotOf (s : State) (b : Fin 2) (f : UbFrame) : Bool :=
  decide (f.place < 2048 ∧ f.place ≤ (ubLay s b).slots) && match stnOfId s b f.place with
    | some d => f.sender = d.id
    | none => ubFromPeer s b f && (ownerOf s (.ubSlot b f.place)).isSome

/-- Whether a frame's TYPE belongs in its place and its SENDER owns that place (R312, R314, R318, R327, R341). -/
def ubOwns (s : State) (b : Fin 2) (f : UbFrame) : Bool :=
  match f.typ with
  | 0 => f.payload.isEmpty && ubSlotOf s b f
  | 1 => ubSlotOf s b f
  | 2 => ubSyncPlace s b f && decide (f.place < 2048) && f.payload.length = 136
  | 3 => ubSyncPlace s b f && decide (f.place < 2048) && f.payload.length = 136
  | 4 => decide (2048 < f.place) && (match stnOfId s b f.place with
      | some d => f.sender = d.id && d.dyn
      | none => ubFromPeer s b f && (ownerOf s (.ubMini b (f.place - 2048))).isSome)
  | 5 => decide (2048 < f.place) && f.payload.length = 8 && (match stnOfId s b f.place with
      | some d => f.sender = d.id
      | none => false)
  | _ => false

/-- What R314 finds: nothing wrong, a SLOT_BOUNDARY, or a frame error. A node that has no keeper's count judges no
CYCLE, and a SYNC gives the count to a node that follows its sender (R306). -/
inductive UbVerdict where
  | good
  | boundary
  | bad
  deriving DecidableEq, Repr

/-- Whether the module is keeper of a bus on which it sends (R339). -/
def ubKeeping (x : Ub) : Bool := x.st = .keeper && !x.silentRaised

/-- Whether the start of a frame is judged: a SYNC or COLDSTART that another node sends in its own time is judged
against the launch point only by the node that sets the time (R323, R341). -/
def ubTimed (x : Ub) (f : UbFrame) : Bool := !(f.typ = 2 || f.typ = 3) || ubKeeping x

/-- Whether a silent keeper has not yet taken another keeper's count (R306, R339). -/
def ubUntaken (x : Ub) : Bool :=
  x.st = .keeper && x.silentRaised && x.keeperSlot = BitVec.ofNat 11 x.layAct.coldSlot

/-- Whether CYCLE is judged: the module counts the bus's cycles, itself or from a keeper's SYNC (R306). A silent keeper
takes the count of the first SYNC it hears (R339). -/
def ubCycleOk (x : Ub) (f : UbFrame) : Bool :=
  !ubCounts x || (f.typ = 2 && ubUntaken x) || f.cycle = x.busCyc.toNat % 256

/-- Whether a frame ends before its slot or its minislots end, and its minislots fit in the open band (R314, R330). -/
def ubInPlace (x : Ub) (f : UbFrame) : Bool :=
  let l := x.layAct
  let n := f.payload.length
  let d : Int := if ubTimed x f then f.dev else 0
  let last : Int := d + (l.lpUt + frameUt n : Nat)
  if f.place < 2048 then decide (last ≤ (l.slotUt : Nat))
  else decide (last ≤ (l.span n * l.miniUt : Nat)) && decide (f.place - 2048 + l.span n ≤ l.minis)

/-- Whether a header can be trusted (R314, R330): the frame decodes, its CRC is correct and its LEN matches. -/
def ubTrusted (x : Ub) (f : UbFrame) : Bool := f.decoded && f.crcOk && decide (f.payload.length ≤ x.layAct.payloadMax)

/-- The judging of a frame (R314). -/
def ubJudge (s : State) (b : Fin 2) (f : UbFrame) : UbVerdict :=
  let x := s.ub[b]
  if ubTimed x f && decide (x.layAct.accUt < f.dev.natAbs) then .boundary
  else if ubTrusted x f && ubInPlace x f && f.id = f.place && ubCycleOk x f && ubOwns s b f then .good
  else .bad

/-- A discarded frame: channel and station counters, capture, and SLOT_BOUNDARY once in each cycle (R314, R348). -/
def ubDiscard (b : Fin 2) (f : UbFrame) (sb : Bool) (s : State) : State :=
  let known := (stnOf s b f.sender).isSome
  let up := fun (e : BitVec 16 × BitVec 16) => if sb then (satInc e.1, e.2) else (e.1, satInc e.2)
  let s := modUb b (fun x => if f.chanB then { x with errB := up x.errB } else { x with errA := up x.errA }) s
  let s := if known then logAdd (stationOfs b.val f.sender) 1 s else s
  if !sb then s
  else
    let s := if known then modStn b f.sender (fun r => { r with sb := satInc r.sb }) s else s
    let id := if known then f.sender else 0
    let s := if s.ub[b].sbValid then s else
      modUb b (fun x => { x with sbValid := true, sbCh := f.chanB, sbStation := BitVec.ofNat 10 id,
                                 sbId := BitVec.ofNat 13 f.id, sbDev := BitVec.ofInt 32 f.dev,
                                 sbCyc := w32 s.scn.cycle }) s
    if s.ub[b].sbRaised then s
    else nvEvent (ubEv b Ev.ublSlotBoundary) (w32 id) (w32 f.id) (modUb b (fun x => { x with sbRaised := true }) s)

/-- Whether channel A has delivered the same slot or ID in this bus cycle, so that a frame on channel B counts for
nothing (R315). -/
def ubBeaten (x : Ub) (f : UbFrame) : Bool :=
  f.chanB && (x.rx ++ x.heardRx).any (fun r => r.id = f.id && r.cycle = x.cycFrom && !r.chanB && r.isFresh)

/-- A valid frame kept as the latest of its slot or ID; channel A wins within one bus cycle (R315). Under another keeper
nothing is kept for Gather (R323), and the channels are compared all the same (R345). -/
def ubKeepRx (b : Fin 2) (f : UbFrame) (s : State) : State :=
  let at_ := s.ub[b].cycFrom
  let e : UbRx := { id := f.id, typ := f.typ, payload := f.payload, chanB := f.chanB, cycle := at_, isFresh := true }
  let far := s.ub[b].st = .foreign && f.typ ≠ 2 && f.typ ≠ 3
  let keep := fun (x : Ub) (g : List UbRx → List UbRx) => if far then { x with heardRx := g x.heardRx } else { x with rx := g x.rx }
  match (if far then s.ub[b].heardRx else s.ub[b].rx).find?
      (fun r => r.id = f.id && r.cycle = at_ && r.chanB ≠ f.chanB && r.isFresh) with
  | some r =>
    let s := modUb b (fun x => if f.chanB then x else keep x (·.map (fun y => if y.id = f.id then e else y))) s
    if r.payload ≠ f.payload && !s.ub[b].differRaised then
      nvEvent (ubEv b Ev.ubChDiffer) (w32 f.sender) (w32 f.id) (modUb b (fun x => { x with differRaised := true }) s)
    else s
  | none => modUb b (fun x => keep x (fun l => l.filter (fun y => y.id ≠ f.id) ++ [e])) s

/-- Whether a station names a channel. -/
def Station.uses (d : Station) (chB : Bool) : Bool := if chB then d.chanB else d.chanA

/-- A valid frame of a station in its static slots or minislot. A JOIN from a station that was admitted loses it, on any
channel (R333); only one on a channel that its entry names asks for admission, that of channel A before that of B (R315,
R331). Under another keeper the stations go on counting misses (R323). -/
def ubStationFrame (b : Fin 2) (f : UbFrame) (s : State) : State :=
  match stnOfId s b f.place with
  | none => s
  | some d =>
    let late := ubBeaten s.ub[b] f
    if f.typ = 5 then
      let s := if late then s else ubLose b f.sender s
      if d.uses f.chanB && !(late && d.chanA) then
        modStn b f.sender (fun r => { r with join := some (w32 (ofBe (f.payload.take 4))) }) s
      else s
    else if f.place < 2048 && d.uses f.chanB && s.ub[b].st ≠ .foreign then
      modStn b f.sender (fun r => { r with got := true }) s
    else s

/-- The ADMIT bit of a station in a SYNC payload (R313). -/
def admitBit (payload : List Byte) (id : Nat) : Bool := bit (payload.getD (8 + id / 8) 0#8) (id % 8)

/-- A valid SYNC or COLDSTART of another node (R322, R323, R339, R341, R342). -/
def ubSyncFrame (b : Fin 2) (f : UbFrame) (s : State) : State :=
  let x := s.ub[b]
  let take := fun (x : Ub) => { x with heard := true, keeperSlot := BitVec.ofNat 11 f.id,
                                       keeperOfs := BitVec.ofInt 16 f.dev,
                                       busCyc := w32 (ofBe (f.payload.take 4)) }
  let hear := fun (x : Ub) => { x with heard := true, lowSeen := x.lowSeen || decide (f.id < x.layAct.coldSlot) }
  match x.st with
  | .standby =>
    if f.typ = 2 && 0x400 ≤ f.sender then
      modUb b (fun x => { take x with stations := x.stations.map (fun r =>
        let a := admitBit f.payload r.id
        { r with admitted := a, lost := !a && (r.lost || r.admitted), everAdmitted := a || r.everAdmitted }) }) s
    else s
  | .listening => if f.typ = 2 then ubForeign b (modUb b take s) else modUb b hear s
  | .coldstart =>
    if f.typ = 2 && !(x.layAct.takeover && decide (x.layAct.coldSlot < f.id)) then ubForeign b (modUb b take s)
    else modUb b hear s
  | .foreign => if f.typ = 2 then modUb b take s else modUb b hear s
  | .keeper =>
    if f.typ = 2 then if x.silentRaised then modUb b take s else ubForeign b (modUb b take s) else s
  | .off => s

/-- What is to be done with an untrusted minislot once the time has passed it: the count stood still while there was
activity (R330). Which number the count takes then is a choice of the model (log entry 105): the next one. -/
def ubResolve (upto : Nat) (x : Ub) : Ub := match x.held with
  | some (m, h) =>
    if m < upto then { x with held := none, minis := max x.minis (m + 1), lag := x.lag + (h - 1) } else x
  | none => x

/-- The minislot count after a frame was seen in minislot `m` (R330): a header that can be trusted moves it by the
frame's minislots, one that cannot holds it. -/
def ubCount (m : Nat) (f : UbFrame) (x : Ub) : Ub :=
  let x := ubResolve m x
  let l := x.layAct
  if ubTrusted x f then
    { x with minis := max x.minis (m + l.span f.payload.length),
             held := x.held.filter (fun h => h.1 ≠ m) }
  else if m < x.minis || l.miniUt = 0 then x
  else { x with held := some (m, (l.lpUt + f.dev.toNat + frameUt f.payload.length + l.miniUt - 1) / l.miniUt) }

/-- What a frame in a static slot counts toward a jam (R336): a frame error on a channel that hears, a valid frame on one
that delivers. -/
def ubMark (b : Fin 2) (f : UbFrame) (v : UbVerdict) (s : State) : State :=
  let i := chIx f.chanB
  let add := fun (l : List Nat) => if l.contains f.place then l else l ++ [f.place]
  if 2048 ≤ f.place then s
  else match v with
  | .boundary => s
  | .bad => modUb b (fun x => { x with jam := vupd x.jam i (fun j => { j with bad := add j.bad }) }) s
  | .good =>
    if ubDelivers s.ub[b] f.chanB then
      modUb b (fun x => { x with jam := vupd x.jam i (fun j => { j with good := add j.good }) }) s
    else s

/-- Whether a slot is the sync slot of a coldstart node, as far as a module can know it: its own, or one of a coldstart
station (R322). -/
def ubColdPlace (s : State) (b : Fin 2) (n : Nat) : Bool :=
  n = (ubLay s b).coldSlot || (decide (n < 2048) && (stnOfId s b n).any (·.cold))

/-- UBUNO_FRAME_RECEIVED (R314, R315, R322, R330, R336). -/
def execUbunoFrameReceived (b : Fin 2) (f : UbFrame) (s : State) : Host.Outcome State Fault Refusal :=
  .next (
    if !ubRuns s b || ubGated s b || !ubHears s.ub[b] f.chanB then s
    else
      let v := ubJudge s b f
      let s := ubMark b f v s
      if !ubDelivers s.ub[b] f.chanB then s
      else
        let s := if 2048 < f.place then modUb b (ubCount (f.place - 2048) f) s else s
        match v with
        | .boundary => ubDiscard b f true s
        | .bad =>
          let s := ubDiscard b f false s
          if ubColdPlace s b f.place then modUb b (fun x => { x with errSeen := true }) s else s
        | .good =>
          let s := ubKeepRx b f s
          if f.typ = 2 || f.typ = 3 then if ubBeaten s.ub[b] f then s else ubSyncFrame b f s
          else ubStationFrame b f s)

/-! ### Transmitting (R51 to R53, R304, R305, R326, R329) -/

/-- Whether the module transmits on a bus at all: on some channel, while a triad runs. -/
def ubMaySend (s : State) (b : Fin 2) : Bool :=
  ubRuns s b && !ubGated s b && !bit s.clk.gatePend (ubGate b) && (fins 5).any (formed s) &&
    ((ubLay s b).chA || (ubLay s b).chB)

/-- The ADMIT bitmap of R313. -/
def admitBytes (x : Ub) : List Byte :=
  (List.range 128).map (fun i => (List.range 8).foldl (fun (m : Byte) k =>
    bitSet m k (x.stations.any (fun r => r.id = 8 * i + k && r.admitted))) 0#8)

/-- A SYNC or COLDSTART payload (R312, R313). -/
def syncPayload (s : State) (b : Fin 2) (claim : Nat) : List Byte :=
  let x := s.ub[b]
  beBytes 4 x.busCyc.toNat ++ beBytes 2 x.layAct.cycUs ++
    [BitVec.ofNat 8 (b2n (s.scn.mode = .run)), BitVec.ofNat 8 claim] ++
    (if claim = 0 then admitBytes x else List.replicate 128 0#8)

/-- The triad whose voter lanes enable a frame (R52): its partition's, or for a frame that no partition owns the
lowest-numbered that runs. -/
def ubEnabler (s : State) (part : Option PartId) : Option TriadId := match part with
  | some p => (triadOf s p).filter (formed s)
  | none => (fins 5).find? (formed s)

/-- Which lanes' own copies of the schedule give a frame's place to a partition (R51). A frame that no partition owns has its
place from the layout. -/
def ubLanes (s : State) (b : Fin 2) (id : Nat) (part : Option PartId) : Vector Bool 3 := match part with
  | none => Vector.replicate 3 true
  | some p => laneOwners s (if id < 2048 then .ubSlot b id else .ubMini b (id - 2048)) p

/-- A frame put on every enabled channel of a bus (R305, R311). Its enable stands from now until `till` (R52), and the frame
begins at its launch point `from_` (R307). -/
def ubSend (b : Fin 2) (typ id : Nat) (payload : List Byte) (part : Option PartId) (from_ till : Nat) (s : State) : State :=
  modUb b (fun x => { x with sent := (ubEnabler s part).map (fun t =>
    { typ := typ, id := id, sender := 0x400 + x.layAct.modId, cycle := x.busCyc.toNat % 256, payload := payload,
      chanA := x.layAct.chA, chanB := x.layAct.chB, part := part, by_ := t,
      lanes := ubLanes s b id part,
      begins := from_, ends := from_ + utTicks s * frameUt payload.length, till := till }) }) s

/-- The enable line of a voter lane of the owning triad to a bus's transmitters, as the lane computes it from the schedule
in its own bank and the released request (R51, R52). The requests stand once in State (log entry 116). -/
def ubEnableLine (s : State) (b : Fin 2) (lane : Lane) : Bool := match s.ub[b].sent with
  | some x => decide (s.tb < x.till) && formed s x.by_ && x.lanes[lane]
  | none => false

/-- The voted enable of a bus: the majority of the three lines (R51). -/
def ubEnabled (s : State) (b : Fin 2) : Bool := maj3 (vgen 3 (ubEnableLine s b))

/-- Whether the transmitter of a channel sends at this instant: between frames every node is dark (R304, R305). -/
def ubOnAir (s : State) (b : Fin 2) (chB : Bool) : Bool :=
  ubEnabled s b && s.ub[b].sent.any (fun x => decide (x.begins ≤ s.tb ∧ s.tb < x.ends) && if chB then x.chanB else x.chanA)

/-- TX_DISABLE of a channel's SFP module (R304). -/
def ubTxDisable (s : State) (b : Fin 2) (chB : Bool) : Bool := !ubOnAir s b chB

/-- Whether a partition's slots carry anything: it and its triad run, and the module is not in SAFE (R326). -/
def ubPartLive (s : State) (p : PartId) : Bool :=
  s.scn.mode ≠ .safe && (match triadOf s p with
    | some t => runningPart s t = some p
    | none => false)

/-- The fixed frame length of an outbound slot (R327). -/
def ubSlotLen (s : State) (b : Fin 2) (slot : Nat) : Nat :=
  match (ubDesc s b).bind (fun d => d.slotLen.find? (fun x => x.1 = slot)) with
  | some x => x.2
  | none => 0

/-- The start of a static slot in the running bus cycle (R307). -/
def ubSlotAt (s : State) (b : Fin 2) (slot : Nat) : Nat :=
  s.ub[b].cycFrom + utTicks s * ((slot - 1) * (ubLay s b).slotUt)

/-- The start of a minislot, counted in time, in the running bus cycle (R307). -/
def ubMiniAt (s : State) (b : Fin 2) (n : Nat) : Nat :=
  s.ub[b].cycFrom + utTicks s * ((ubLay s b).slots * (ubLay s b).slotUt + n * (ubLay s b).miniUt)

/-- The launch point of a slot or minislot that starts at `at_` (R307). -/
def ubLaunchAt (s : State) (b : Fin 2) (at_ : Nat) : Nat := at_ + utTicks s * (ubLay s b).lpUt

/-- What the module sends from now, the launch point of a slot (R322, R326). The enable is withdrawn at the slot's end (R52). -/
def ubLaunch (b : Fin 2) (slot : Nat) (s : State) : State :=
  let x := s.ub[b]
  let till := ubSlotAt s b (slot + 1)
  if slot = x.layAct.coldSlot then
    match x.st with
    | .keeper => ubSend b 2 slot (syncPayload s b 0) none s.tb till s
    | .coldstart =>
      if x.claim = 0 || ubSlotAt s b slot < x.claimFrom then s
      else modUb b (fun x => { x with claimSent := true }) (ubSend b 3 slot (syncPayload s b x.claim) none s.tb till s)
    | _ => s
  else if x.st ≠ .keeper then s
  else match ownerOf s (.ubSlot b slot) with
  | none => s
  | some p =>
    if !ubPartLive s p then s
    else
      let valid := s.scn.mode = .run && (match x.curValid[p] with
        | some c => decide (s.scn.cycle ≤ c)
        | none => false)
      if valid then ubSend b 1 slot (getBytes x.cur (0x100 * slot) (ubSlotLen s b slot)) (some p) s.tb till s
      else ubSend b 0 slot [] (some p) s.tb till s

/-- UBUNO_SLOT_LAUNCH (R326): at the launch point of a slot the module sends SYNC, COLDSTART, STATIC, NULL or
nothing. -/
def execUbunoSlotLaunch (b : Fin 2) (slot : Nat) (s : State) : Host.Outcome State Fault Refusal :=
  .next (
    let l := ubLay s b
    if !ubRuns s b || slot = 0 || l.slots < slot || s.ub[b].cycNo < s.scn.cycle then s
    else
      let s := advanceTo (ubLaunchAt s b (ubSlotAt s b slot)) s
      let s := modUb b (fun x => { x with sent := none }) s
      if ubMaySend s b then ubLaunch b slot s else s)

/-- A request refused for budget waits: LIMITED, and UB_DYN_LIMIT on entry (R329). -/
def ubLimit (b : Fin 2) (r : DynReq) (s : State) : State :=
  let raised := s.ub[b].dyn.any (fun y => y.part = r.part && y.limited)
  let s := modUb b (fun x => { x with dyn := x.dyn.map (fun y => if y.mini = r.mini then { y with limited := true }
                                                                 else y) }) s
  if raised then s else nvEvent (ubEv b Ev.ubDynLimit) 0#32 (w32 (2048 + r.mini)) s

/-- Minislot `mini` is reached (R329): the module enables its transmitters, and its frame begins at the launch point (R52,
R307). -/
def ubMini (b : Fin 2) (mini : Nat) (s : State) : State :=
  let x := s.ub[b]
  let l := x.layAct
  match x.dyn.find? (fun r => r.mini = mini && r.ready) with
  | none => s
  | some r =>
    if !ubMaySend s b || x.st ≠ .keeper || !ubPartLive s r.part then s
    else if l.payloadMax < r.len then
      modUb b (fun x => { x with dyn := x.dyn.filter (fun y => y.mini ≠ mini) }) s
    else
      let k := l.span r.len
      if l.minis < mini + x.lag + k then s
      else if x.dynLeft[r.part] < k then ubLimit b r s
      else
        let s := modUb b (fun x =>
          { x with dyn := x.dyn.filter (fun y => y.mini ≠ mini), minis := mini + k,
                   dynLeft := vupd x.dynLeft r.part (· - k) }) s
        ubSend b 4 (2048 + mini) (getBytes s.ub[b].cur (0x100000 + 0x100 * mini) r.len) (some r.part)
          (ubLaunchAt s b (ubMiniAt s b (mini + x.lag))) (ubMiniAt s b (mini + x.lag + k)) s

/-- DYNAMIC_FRAME_SEND (R329, R330): minislot `mini` is reached. A request that cannot be sent waits for the next bus
cycle; one longer than PAYLOAD_MAX is no frame of R310 and is dropped. -/
def execDynamicFrameSend (b : Fin 2) (mini : Nat) (s : State) : Host.Outcome State Fault Refusal :=
  .next (
    let x := ubResolve mini s.ub[b]
    if !ubRuns s b || x.layAct.minis ≤ mini + x.lag || mini < x.minis || x.cycNo < s.scn.cycle then s
    else
      let s := modUb b (fun _ => { x with minis := mini + 1, sent := none }) s
      ubMini b mini (advanceTo (ubMiniAt s b (mini + x.lag)) s))

/-! ### Coldstart (R322) -/

/-- COLDSTART_LISTEN_END (R322): LISTEN_CYC cycles and s_x slots have passed. A module that may not coldstart listens
on. -/
def execColdstartListenEnd (b : Fin 2) (s : State) : Host.Outcome State Fault Refusal :=
  .next (
    let l := ubLay s b
    if !ubRuns s b || ubGated s b || s.ub[b].st ≠ .listening then s
    else
      let s := advanceTo (s.ub[b].listenFrom + utTicks s * (l.listenCyc * l.cycUt + l.coldSlot * l.slotUt)) s
      if s.ub[b].heard then ubForeign b s
      else if l.coldEn then ubClaim b s
      else ubListen b s)

/-- COLDSTART_CLAIM_CYCLE_END (R322): the end of a bus cycle in which the module has sent COLDSTART. What the frames
received in it have shown (`ubSyncFrame`) and what the receivers saw besides are judged as one. -/
def execColdstartClaimCycleEnd (b : Fin 2) (lowerSeen frameError : Bool) (s : State) : Host.Outcome State Fault Refusal :=
  .next (
    let x := s.ub[b]
    if !ubRuns s b || ubGated s b || x.st ≠ .coldstart || !x.claimSent then s
    else
      let s := modUb b (fun x => { x with lowSeen := x.lowSeen || lowerSeen, errSeen := x.errSeen || frameError }) s
      ubClaimEnd b (advanceTo (ubEndAt s b) s))

/-- COLDSTART_BACKOFF_END (R322): s_x whole cycles after a collision. -/
def execColdstartBackoffEnd (b : Fin 2) (s : State) : Host.Outcome State Fault Refusal :=
  .next (
    let x := s.ub[b]
    if !ubRuns s b || ubGated s b || x.st ≠ .coldstart || x.claim ≠ 0 then s
    else
      let s := advanceTo (x.backoffFrom + utTicks s * ((ubLay s b).coldSlot * (ubLay s b).cycUt)) s
      if x.heard then ubForeign b s else ubClaim b s)

/-! ### Channels (R336, R532) -/

/-- CHANNEL_JAM (R336): `c.busy` marks the running bus cycle. In the JAM_CYC-th jammed cycle in a row the channel is
declared jammed at the cycle's end. -/
def execChannelJam (b : Fin 2) (c : JamIn) (s : State) : Host.Outcome State Fault Refusal :=
  .next (
    if !ubRuns s b || ubGated s b || s.ub[b].closed then s
    else
      let s := modUb b (fun x => { x with jam := vupd x.jam (chIx c.chanB) (fun j => { j with busy := j.busy || c.busy }) }) s
      let x := s.ub[b]
      if !ubIsJam x c.chanB && ubJammed x c.chanB && decide (x.layAct.jamCyc ≤ x.jam[chIx c.chanB].run + 1) then
        ubDeclareJam b c.chanB (advanceTo (ubEndAt s b) s)
      else s)

/-- CHANNEL_OK (R336, R532): the 16th cycle in a row in which a channel out of use is not jammed, with a usable SFP
module, has ended. -/
def execChannelOk (b : Fin 2) (chB : Bool) (s : State) : Host.Outcome State Fault Refusal :=
  .next (
    let x := s.ub[b]
    if !ubRuns s b || ubGated s b || x.closed || !ubIsOut x chB || ubJammed x chB || x.jam[chIx chB].clean + 1 < 16 then s
    else ubRestore b chB (advanceTo (ubEndAt s b) s))

/-- SFP_CHANGE (R532): a channel whose module becomes unusable is out until CHANNEL_OK; its cycles without a jam count
from the change on. -/
def execSfpChange (b : Fin 2) (chB usable : Bool) (s : State) : Host.Outcome State Fault Refusal :=
  .next (
    if !hasUb s b then s
    else modUb b (fun x =>
      let x := { x with jam := vupd x.jam (chIx chB) (fun j => { j with clean := 0 }) }
      if chB then { x with sfpB := usable, downB := x.downB || (x.sfpB && !usable) }
      else { x with sfpA := usable, downA := x.downA || (x.sfpA && !usable) }) s)

/-! ### Emit (R328, R329) -/

/-- The end of a partition's Emit: its buffers are due to be copied and its DYNAMIC requests are released; what is
still unsent is dropped. A HOLD stepped cycle releases nothing (R151). -/
def ubEmit (p : PartId) (hold : Bool) (s : State) : State :=
  forEach (fins 2) (fun b s =>
    let mine := s.ub[b].ctrl.filter (fun x => ownerOf s (.ubMini b x.1) = some p)
    let reqs := mine.filterMap (fun x =>
      if bit x.2 31 && !hold then
        some (⟨x.1, fld x.2 0 8, p, false, false⟩ : DynReq)
      else none)
    modUb b (fun x =>
      { x with ctrl := x.ctrl.filter (fun y => !mine.any (fun m => m.1 = y.1)),
               dyn := x.dyn.filter (fun r => r.part ≠ p) ++ reqs,
               copyDue := if hold then x.copyDue else vset x.copyDue p true,
               copyCyc := if hold then x.copyCyc else vset x.copyCyc p s.parts[p].releaseCyc }) s) s

/-- Control words that a partition stored for an Emit that never came count for nothing in the next cycle (R329). -/
def ubEnter (p : PartId) (s : State) : State :=
  forEach (fins 2) (fun b s => modUb b (fun x =>
    { x with ctrl := x.ctrl.filter (fun y => ownerOf s (.ubMini b y.1) ≠ some p) }) s) s

/-! ### The boundary -/

/-- Step 1 of R145: the bus cycles that ended are closed, and the latest frames are snapshotted (R142, R316). -/
def ubSnapshot (s : State) : State :=
  forEach (fins 2) (fun b s =>
    let s := ubClose b s
    modUb b (fun x => { x with snap := x.rx, rx := x.rx.map (fun r => { r with isFresh := false }), sbRaised := false,
                               differRaised := false }) s) s

/-- Whether a cycle period of `n` × 0.1 ms is a whole number of a layout's bus cycles, or the bus is off (R140). -/
def ubFits (n : Nat) (l : UbLayout) : Bool := !l.en || (0 < l.cycUs && n * 100 % l.cycUs = 0)

/-- A layout refused: active values kept, shadow back, UB_CFG_REFUSED (R309). -/
def ubRefuse (b : Fin 2) (s : State) : State :=
  nvEvent (ubEv b Ev.ubCfgRefused) 0#32 0#32 (modUb b (fun x => { x with lay := x.layAct }) s)

/-- Step 4 of R145 for the buses and T_cyc: the two steps of R140. -/
def ubTcyc (s : State) : State :=
  let changed := fun (b : Fin 2) => hasUb s b && s.ub[b].lay ≠ s.ub[b].layAct
  let own := fun (b : Fin 2) => changed b && s.scn.mode ≠ .run && s.scn.mode ≠ .hold && s.ub[b].lay.ok
  let after := fun (b : Fin 2) => if own b then s.ub[b].lay else s.ub[b].layAct
  let n := s.scn.tcycSh.toNat
  let fits := (fins 2).all (fun b => !hasUb s b || ubFits n (after b))
  let n' := if fits then s.scn.tcycSh else s.scn.tcycAct
  let keep := fun (b : Fin 2) => own b && (fits ||
    (s.ub[b].lay.cycUs = s.ub[b].layAct.cycUs && ubFits n'.toNat s.ub[b].lay))
  let s := { s with scn := { s.scn with tcycSh := n', tcycAct := n' } }
  let s := if fits then s else nvEvent Ev.tcycRefused 0#32 0#32 s
  forEach (fins 2) (fun b s =>
    if !changed b then s
    else if keep b then ubRestart b (modUb b (fun x => { x with layAct := x.lay }) s)
    else ubRefuse b s) s

/-- Step 4 of R145: the dynamic budgets. -/
def ubShadows (s : State) : State :=
  forEach (fins 2) (fun b s => modUb b (fun x => { x with dynAct := x.dynSh }) s) s

/-- Step 8 of R145 for one station (R331, R338). -/
def ubAdmitOne (b : Fin 2) (id : Nat) (s : State) : State :=
  match stnRt s b id, stnOf s b id with
  | some r, some d =>
    let s := modStn b id (fun r => { r with join := none, joinRefused := r.joinRefused && r.join.isSome }) s
    match r.join with
    | none => s
    | some conf =>
      if r.admitted then s
      else if conf = d.conf then
        if s.ub[b].st ≠ .keeper || s.clk.srcIo then s
        else nvEvent (ubEv b Ev.ublStationJoined) (w32 id) (w32 (2048 + id))
          (modStn b id (fun r => { r with admitted := true, everAdmitted := true, lost := false, run := 0,
                                          got := true, joinRefused := false }) s)
      else if r.joinRefused then s
      else nvEvent (ubEv b Ev.ublJoinRefused) (w32 id) (w32 (2048 + id))
        (modStn b id (fun r => { r with joinRefused := true }) s)
  | _, _ => s

/-- Step 8 of R145: station admission. -/
def ubAdmit (s : State) : State :=
  forEach (fins 2) (fun b s =>
    if hasUb s b then forEach (s.ub[b].stations.map (·.id)) (ubAdmitOne b) s else s) s

/-- A station that has not joined. -/
def StnRt.blank (id : Nat) : StnRt :=
  { id := id, admitted := false, lost := false, everAdmitted := false, run := 0, missed := 0#16, sb := 0#16,
    got := false, join := none, joinRefused := false, lostSince := false }

/-- The station table switches with the image (R320): `old` is the table that ran. -/
def ubRetable (b : Fin 2) (old new : List Station) (s : State) : State :=
  let changed := old.filter (fun o => new.any (fun n => n.id = o.id && n ≠ o))
  let s := forEach (changed.map (·.id)) (ubLose b) s
  modUb b (fun x => { x with stations := new.map (fun n =>
    match x.stations.find? (fun r => r.id = n.id) with
    | some r => r
    | none => StnRt.blank n.id) }) s

/-! ### Start, shut-down, hand-over -/

/-- The bus cycles begin at B of cycle 1 with the descriptor's layout (R309, R322, R341). A cage without a usable module
comes into use through CHANNEL_OK (R532). -/
def ubStart (s : State) : State :=
  forEach (fins 2) (fun b s =>
    if !hasUb s b then s
    else
      let s := modUb b (fun x =>
        { x with layAct := x.lay, downA := !x.sfpA, downB := !x.sfpB, stations := match ubDesc s b with
            | some d => d.stations.map (fun n => StnRt.blank n.id)
            | none => [] }) s
      ubRestart b s) s

/-- The module leaves every bus (R322, R488). -/
def ubStop (s : State) : State :=
  forEach (fins 2) (fun b s => modUb b (fun x =>
    { x with st := .off, claim := 0, claimSent := false, keeperSlot := 0#11, keeperOfs := 0#16, sent := none }) s) s

/-- The former ACTIVE goes dark at a hand-over boundary (R343). -/
def ubDark (s : State) : State :=
  forEach (fins 2) (fun b s =>
    if s.ub[b].st = .off then s
    else modUb b (fun x => { x with st := .standby, claim := 0, claimSent := false, keeperSlot := 0#11,
                                    keeperOfs := 0#16, sent := none }) s) s

/-- The new ACTIVE becomes keeper of every bus at the hand-over boundary, or coldstarts it (R343). -/
def ubTakeBus (s : State) : State :=
  forEach (fins 2) (fun b s =>
    if s.ub[b].st ≠ .standby then s
    else if s.ub[b].keeperOfs.toInt.natAbs ≤ (ubLay s b).accUt && s.ub[b].keeperSlot ≠ 0#11 then ubKeepOn b s
    else ubRestart b s) s

/-! ### Agree (R316, R335) -/

/-- The value of a field object in a payload, none if it lies beyond the payload (R317). -/
def objValue (o : FieldObj) (payload : List Byte) : Option Word :=
  let n := if o.word then 2 ^ o.width else 1
  if payload.length < o.byte + n then none
  else
    let v : Nat := ofBe ((payload.drop o.byte).take n)
    if !o.word then some (b2w (v.testBit o.bit))
    else if o.signed then some (BitVec.ofInt 32 (Int.bmod v (2 ^ (8 * n)))) else some (w32 v)

/-- The substitution mode of an object (R317). -/
def FieldObj.subst (o : FieldObj) : Subst := if o.last then .last o.hold else .safe

/-- One field object at an Agree (R172, R316, R332, R333): its station is lost or was lost since the last Agree, or never
admitted; a value under substitution stays so until a valid frame of the station delivers another. -/
def ubObject (b : Fin 2) (o : FieldObj) (s : State) : State :=
  let g : Sig := ⟨o.word, o.signal⟩
  let gone := match stnOfId s b o.id with
    | some d => match stnRt s b d.id with
      | some r => r.lost || r.lostSince || !r.everAdmitted
      | none => true
    | none => false
  if gone then agreeSubst g o.subst 0 s
  else match (s.ub[b].snap.find? (fun r => r.id = o.id && (r.typ = 1 || r.typ = 4) && r.isFresh)).bind (fun r => objValue o r.payload) with
    | some v => agreeWrite g v (qual 0 (2 + b.val) 0) s
    | none => if bit (ageQual s g) 0 then agreeSubst g o.subst 0 s else agreeQual g (ageQual s g) s

/-- A word of a station bitmap. -/
def ubBitmap (x : Ub) (f : StnRt → Bool) (w : Nat) : Word :=
  (List.range 32).foldl (fun (m : Word) k => bitSet m k (x.stations.any (fun r => r.id = 32 * w + k && f r))) 0#32

/-- The 64 words of R335. -/
def ubWords (b : Fin 2) (base : Nat) (s : State) : State :=
  let x := s.ub[b]
  let q := qual 0 (2 + b.val) 0
  let s := forEach (List.range 32) (fun w s => agreeWrite ⟨true, base + w⟩ (ubBitmap x (·.admitted) w) q s) s
  forEach (List.range 32) (fun w s => agreeWrite ⟨true, base + 32 + w⟩ (ubBitmap x (·.lostSince) w) q s) s

/-- What Agree writes for the buses, and the STATION_LOST blocks that become due (R316, R334, R335). -/
def ubAgree (s : State) : State :=
  let s := forEach (fins 5) (fun p s => modPart p (fun x => { x with lostDue := false }) s) s
  forEach (fins 2) (fun b s =>
    match ubDesc s b with
    | none => s
    | some d =>
      if !hasUb s b then s
      else
        let s := forEach d.objects (ubObject b) s
        let s := match d.bitmapBase with
          | some base => ubWords b base s
          | none => s
        let s := forEach d.stations (fun n s =>
          if (match stnRt s b n.id with
            | some r => r.lostSince
            | none => false) then modPart n.owner (fun x => { x with lostDue := true }) s
          else s) s
        modUb b (fun x => { x with stations := x.stations.map (fun r => { r with lostSince := false }) }) s) s

end Sys2Proof.Machine
end

