-- ==== Sys2Proof/Machine/Rack.lean ====
section
/-!
DEFINITION. The rack bus, the mirror and the standby twin (R401 to R428): reads in both directions, partners, the
equalisation stream, the twin's roles, hand-over and takeover.
-/
namespace Sys2Proof.Machine

open Sys2Proof

/-- A change of the rack block. -/
def modRck (f : Rck → Rck) (s : State) : State := { s with rck := f s.rck }

/-- The gate bit of the rack bus (R441). -/
def rackGate : Nat := 6

/-- Slot 15 belongs to the partner module of a twin (R412). -/
def twinSlot (s : State) (i : Fin 16) : Bool := s.rck.twinEnAct && i = 15

/-- The rack table's entry for a slot (R409). -/
def rackSlot (s : State) (i : Fin 16) : Option RackSlot :=
  s.olc.active.bind (fun im => (im.io.rack.find? (fun r => r.1 = i.val)).map (·.2))

/-- The position pins say B (RCK_STAT.SLOT_ID). -/
def positionB (s : State) : Bool := bit s.rck.sid 0

/-! ### The mirror (R404 to R407) -/

/-- The module's identification (R405, R408): TYPE, VERSION, IN_OFS, IN_LEN, SERIAL and CHECK. -/
def mirrorIdent : List Byte :=
  let body := leBytes 4 0x00010010 ++ leBytes 4 Config.firmware.toNat ++ leBytes 4 0x40 ++ leBytes 4 256 ++
    leBytes 8 0 ++ leBytes 4 Config.serial.toNat
  body ++ leBytes 4 (crc32 body).toNat

/-- The words of a half of the equalisation window: half h holds the next unread chunk of its parity (R418). -/
def eqWord (s : State) (i : Nat) : Word :=
  let half := i / 2048
  let n := s.rck.readHalves
  let chunk := if n % 2 = half then n else n + 1
  s.rck.streamWords.getD (2048 * chunk + i % 2048) 0#32

/-- Whether the equalisation window answers a reader (R404). -/
def eqOpen (s : State) (slot : Fin 16) : Bool :=
  (s.rck.twinEnAct && s.rck.role = .active && slot = 15) || (s.rck.transfer && s.rck.role = .standby && slot = 0)

/-- Whether every read is refused: in START and SHUTDOWN, and while the clock is gated (R404). -/
def rackDeaf (s : State) : Bool := s.scn.mode = .start || s.scn.mode = .shutdown || bit s.clk.gateClosed rackGate

/-- The answer to a read of slot 0, none for a NACK (R404). -/
def rackAnswer (s : State) (slot : Fin 16) (ofs : Nat) : Option Word :=
  if rackDeaf s then none
  else if ofs % 4 ≠ 0 then none
  else if ofs < 0x20 then some (w32 (ofLe ((mirrorIdent.drop ofs).take 4)))
  else if ofs < 0xC000 then some (w32 (ofLe (getBytes s.rck.mirCur ofs 4)))
  else if ofs < 0x10000 && eqOpen s slot then some (eqWord s ((ofs - 0xC000) / 4)) else none

/-! ### Arbitration (R403) -/

/-- Whether the module drives RBCLK, and so arbitrates and is slot 0: in a twin only the ACTIVE does (R401, R412); in
START nobody does (R473). -/
def rackDrives (s : State) : Bool :=
  s.scn.mode ≠ .start && (s.rck.role = .active || (s.rck.role = .single && !s.rck.twinEnAct))

/-- Whether RBCLK is faster than TB ÷ 2, so that the answers of R401 and R404 are not assured and the twin's equalisation
fails R418 (R440). -/
def rackTooFast (s : State) : Bool := decide (fld s.clk.divAct 0 4 < 2)

/-- Whom the module grants the next transfer, none for itself (R403): its own reads and the partners' alternate while both
wait, and partners take turns in rotating slot order after the one served last. -/
def rackGrant (r : Rck) (own : Bool) : Option (Fin 16) :=
  if own && (r.reqs = 0#16 || !r.ownLast) then none
  else ((List.range 16).map (fun k => (⟨(r.lastSlot + 1 + k) % 16, Nat.mod_lt _ (by decide)⟩ : Fin 16))).find?
    (fun i => bit r.reqs i.val)

/-- The request lines as sampled, and the grant that the module asserts for the transfer that follows: none while a gate
request is pending (R441). -/
def rackArb (slot : Fin 16) (reqs : BitVec 16) (own pending : Bool) (r : Rck) : Rck :=
  let r := { r with reqs := bitSet reqs slot.val true }
  { r with gnt := if pending then none else rackGrant r own }

/-- A partner's transfer: its request is served. -/
def rackServed (slot : Fin 16) (r : Rck) : Rck :=
  { r with reqs := bitSet r.reqs slot.val false, lastSlot := slot.val, ownLast := false }

/-- The module takes a transfer itself. A read of several words takes as many, and partners that wait are served between
them by commands of their own. -/
def rackOwn (r : Rck) : Rck := { r with gnt := none, ownLast := true }

/-- The answer to a partner's transfer: the word, the NACK count, and the refill of a half whose last word was read
(R404, R418). On a bus that is too fast, wrong data or NACK may stand for it: a free value (R440, log entry 117). -/
def rackServe (slot : Fin 16) (ofs : Nat) (s : State) : State :=
    let (a, s) := if rackTooFast s && rackDrives s && (rackAnswer s slot ofs).isSome then
        let (w, s) := draw s
        let (v, s) := draw s
        (if bit w 0 then none else if bit w 1 then some v else rackAnswer s slot ofs, s)
      else (rackAnswer s slot ofs, s)
    match a with
    | none => modRck (fun r => { r with answer := none, given := satInc r.given }) s
    | some w =>
      let half := (ofs - 0xC000) / 0x2000
      let last := 0xC000 ≤ ofs && ofs % 0x2000 = 0x1FFC && s.rck.readHalves % 2 = half
      modRck (fun r => { r with answer := some w, readHalves := if last then r.readHalves + 1 else r.readHalves }) s

/-- RACK_READ (R403, R404): a slot requests a transfer while `r.reqs` are the other slots that do and `r.own` says that a
read of the module waits too. A slot that is not granted the transfer waits: nothing is read. A STANDBY
drives no bus: it is the partner at slot 15, and the ACTIVE arbitrates (R401, R414). -/
def execRackRead (slot : Fin 16) (r : RackReadIn) (s : State) : Host.Outcome State Fault Refusal :=
  .next (
    if rackDeaf s || !rackDrives s then rackServe slot r.ofs s
    else
      let s := modRck (rackArb slot r.reqs r.own (bit s.clk.gatePend rackGate)) s
      if s.rck.gnt = some slot then rackServe slot r.ofs (modRck (rackServed slot) s) else s)

/-- The blocks of a partition are copied from next to current as its Emit ends, but not in SAFE or STOP (R406, R407). -/
def mirEmit (p : PartId) (s : State) : State :=
  let blocks : List Nat := match s.olc.active with
    | some im => im.owners.filterMap (fun o => match o.dest with
      | .mirror j => if o.owner = p then some j else none
      | _ => none)
    | none => []
  if s.scn.mode = .stop || s.scn.mode = .safe then s
  else modRck (fun r => { r with mirCur := blocks.foldl (fun m j =>
    let ofs := if j = 0 then 0x40 else 0x100 * j
    putBytes m ofs (getBytes r.mirNext ofs (if j = 0 then 192 else 256))) r.mirCur }) s

/-! ### Partners (R408 to R411) -/

/-- PARTNER_PRESENT (R410): PRES_s asserted for 10 ms. -/
def execPartnerPresent (i : Fin 16) (s : State) : Host.Outcome State Fault Refusal :=
  .next (
    if i = 0 then s
    else
      let s := modRck (fun r => { r with pres := bitSet r.pres i.val true }) s
      if s.rck.parts[i].st ≠ .absent then s
      else nvEvent Ev.rckPartnerIn (w32 i.val) 0#32
        (modSlot i (fun _ => { RackPart.init with st := .present, left := s.rck.parts[i].left }) s))

/-- PARTNER_ABSENT (R411): PRES_s deasserted for 1 ms. -/
def execPartnerAbsent (i : Fin 16) (s : State) : Host.Outcome State Fault Refusal :=
  .next (
    if i = 0 then s
    else
      let s := modRck (fun r => { r with pres := bitSet r.pres i.val false }) s
      let s := if twinSlot s i then modRck (fun r => { r with peerMet := false }) s else s
      if s.rck.parts[i].st = .absent then s else modSlot i (fun _ => { RackPart.init with left := true }) s)

/-- The identification window of a partner (R408, R410): judged once CHECK is right; a board that the rack table does
not name, or names otherwise, is refused. -/
def rackIdent (i : Fin 16) (ws : List Word) (s : State) : State :=
  let bytes := ws.flatMap (fun w => leBytes 4 w.toNat)
  if ws.length ≠ 8 || (ws.getD 7 0#32) ≠ crc32 (bytes.take 28) then s
  else
    let s := modSlot i (fun x => { x with typ := (ws.getD 0 0#32).setWidth 16 }) s
    match rackSlot s i with
    | some d =>
      if d.typ = ws.getD 0 0#32 && decide (d.minVer.toNat ≤ (ws.getD 1 0#32).toNat) then
        modSlot i (fun x => { x with matched := true, inOfs := (ws.getD 2 0#32).toNat,
                                     inLen := (ws.getD 3 0#32).toNat }) s
      else nvEvent Ev.rckPartnerRefused (w32 i.val) 0#32 (modSlot i (fun x => { x with st := .refused }) s)
    | none => nvEvent Ev.rckPartnerRefused (w32 i.val) 0#32 (modSlot i (fun x => { x with st := .refused }) s)

/-- The fields of a stream header (log entry 18 gives the layout): cycle, TB at B, OLC_ID_ACT, byte count, mask. -/
def eqHeader (bytes : List Byte) : EqStream × Nat :=
  ({ cycle := ofLe (bytes.take 8), tb := ofLe ((bytes.drop 8).take 8), id := w32 (ofLe ((bytes.drop 16).take 4)),
     mask := BitVec.ofNat 5 (ofLe ((bytes.drop 24).take 4)), first := [], pages := [] }, ofLe ((bytes.drop 20).take 4))

/-- The stamps from which the module counts its own time, moved as TB is (log entry 69): a core's time in its place and
since its last test, the brake tests, a running reset, feedback, exercise, scrubber, gate and reference time, and the
operating hours. -/
def ownTime (ahead : Int) (s : State) : State :=
  let mv (n : Nat) : Nat := ((n : Int) + ahead).toNat
  { s with
    log := { s.log with skew := s.log.skew + ahead },
    cores := vmap (fun k => { k with kenAt := mv k.kenAt, resSince := mv k.resSince }) s.cores,
    saf := { s.saf with armAt := s.saf.armAt.map mv, fbFrom := vmap (·.map mv) s.saf.fbFrom,
                        exerEnd := mv s.saf.exerEnd,
                        brk := vmap (fun b => { b with passAt := mv b.passAt, graceAt := b.graceAt.map mv,
                                                       startB := mv b.startB }) s.saf.brk },
    dio := { s.dio with outs := vmap (fun o => { o with stopAt := mv o.stopAt, coilFrom := o.coilFrom.map mv,
                                                        restFrom := mv o.restFrom, waitOn := o.waitOn.map mv }) s.dio.outs },
    tri := { s.tri with scrubFrom := mv s.tri.scrubFrom },
    clk := { s.clk with gateSince := vmap mv s.clk.gateSince, noRefFrom := s.clk.noRefFrom.map mv } }

/-- The first header a STANDBY reads gives it TB and cycle number: the cycle that runs follows the stream's (R415).
What counts the module's own time goes on counting it. -/
def twinLoad (s : State) : State :=
  let bytes := (s.rck.rxWords.take 8).flatMap (fun w => leBytes 4 w.toNat)
  if s.rck.loaded || s.rck.rxWords.length < 8 || s.rck.role ≠ .standby then s
  else
    let (h, _) := eqHeader bytes
    let b := h.tb + tcycTicks s
    let now := b + (s.tb - s.scn.bTb)
    let ahead : Int := (now : Int) - s.tb
    { ownTime ahead s with
      tb := now,
      scn := { s.scn with cycle := h.cycle + 1, bTb := b, nextB := b + tcycTicks s },
      rck := { s.rck with loaded := true } }

/-- Whether the module reads its partner's equalisation window: slot 0 as STANDBY, slot 15 in a transfer cycle (R404,
R418, R422). -/
def eqReads (s : State) (i : Fin 16) : Bool :=
  s.rck.twinEnAct && ((s.rck.role = .standby && !s.rck.transfer && i = 0) ||
    (s.rck.role = .active && s.rck.transfer && i = 15))

/-- A read of the input window of a partner that is admitted or stale (R410): a whole window without NACK counts, and LIFE
is its first word. -/
def rackWindow (i : Fin 16) (ofs : Nat) (a : RackAnswer) (s : State) : State :=
  modSlot i (fun x => match a with
    | .nack => if x.inOfs ≤ ofs ∧ ofs < x.inOfs + x.inLen then { x with nacked := true } else x
    | .data ws =>
      if ofs = x.inOfs ∧ 4 * ws.length = x.inLen then
        { x with data := some ws, nacked := false, life := ws.getD 0 0#32,
                 lifeMoved := x.lifeMoved || ws.getD 0 0#32 ≠ x.life }
      else x) s

/-- An answer to a read of the module, by what it reads (R402, R410, R414, R418). -/
def rackTakes (i : Fin 16) (ofs : Nat) (a : RackAnswer) (s : State) : State :=
  let s := if a = .nack then modRck (fun r => { r with rcvd := satInc r.rcvd }) s else s
  if 0xC000 ≤ ofs && eqReads s i then match a with
    | .nack => s
    | .data ws => twinLoad (modRck (fun r => { r with rxWords := r.rxWords ++ ws }) s)
  else if i = 0 || twinSlot s i then s
  else match s.rck.parts[i].st, a with
  | .present, .data ws => if s.rck.parts[i].matched || ofs ≠ 0 then s else rackIdent i ws s
  | .admitted, _ => rackWindow i ofs a s
  | .stale, _ => rackWindow i ofs a s
  | _, _ => s

/-- RACK_PARTNER_READ (R402, R403, R410, R418): the module reads a partner's identification, its input window, or the
equalisation window of its twin. A partner that waits for its turn is granted the transfer first; no cycle is granted while
a gate request is pending (R441). -/
def execRackPartnerRead (i : Fin 16) (ofs : Nat) (a : RackAnswer) (s : State) : Host.Outcome State Fault Refusal :=
  .next (
    if rackDeaf s then s
    else if !rackDrives s then rackTakes i ofs a s
    else if bit s.clk.gatePend rackGate then modRck (fun r => { r with gnt := none }) s
    else match rackGrant s.rck true with
    | some j => modRck (fun r => { r with gnt := some j }) s
    | none => rackTakes i ofs a (modRck rackOwn s))

/-- PARTNER_STALE (R410): LIFE unchanged for STALE_N boundaries, or two input window reads in a row ended in NACK. -/
def execPartnerStale (i : Fin 16) (s : State) : Host.Outcome State Fault Refusal :=
  .next (match rackSlot s i with
    | some d =>
      let x := s.rck.parts[i]
      if x.st = .admitted && decide (d.staleN ≤ x.lifeCnt ∨ 2 ≤ x.nackCnt) then
        nvEvent Ev.rckPartnerStale (w32 i.val) 0#32 (modSlot i (fun x => { x with st := .stale, held := true }) s)
      else s
    | none => s)

/-- Step 1 of R145: the last complete read of every input window is snapshotted, and LIFE and NACK are counted. -/
def rackSnapshot (s : State) : State :=
  forEach (fins 16) (fun i s => modSlot i (fun x =>
    if x.st = .admitted || x.st = .stale then
      { x with snap := x.data, data := none, lifeCnt := if x.lifeMoved then 0 else x.lifeCnt + 1,
               nackCnt := if x.nacked then x.nackCnt + 1 else 0, nacked := false }
    else { x with snap := none, data := none }) s) s

/-- Step 8 of R145: a matching partner is admitted, and a stale one whose LIFE has changed returns (R410). -/
def rackAdmit (s : State) : State :=
  forEach (fins 16) (fun i s =>
    let x := s.rck.parts[i]
    let s := match x.st with
      | .present =>
        if x.matched then
          nvEvent Ev.rckPartnerAdmitted (w32 i.val) 0#32
            (modSlot i (fun x => { x with st := .admitted, lifeCnt := 0, nackCnt := 0, snap := none, data := none }) s)
        else s
      | .stale => if x.lifeMoved && x.nackCnt = 0 then modSlot i (fun x => { x with st := .admitted, lifeCnt := 0 }) s else s
      | _ => s
    modSlot i (fun x => { x with lifeMoved := false }) s) s

/-- Every partner starts again from ABSENT as the gate reopens; those present are met again (R410, R444). -/
def rackRestart (s : State) : State :=
  forEach (fins 16) (fun i s => modSlot i (fun x =>
    { RackPart.init with left := x.left || x.st ≠ .absent }) s) s

/-- One rack object at an Agree (R409, R411). -/
def rackObject (i : Fin 16) (o : FieldObj) (s : State) : State :=
  let g : Sig := ⟨o.word, o.signal⟩
  let x := s.rck.parts[i]
  let live := x.st = .admitted
  match x.snap with
  | some ws =>
    if live then match objValue o (ws.flatMap (fun w => leBytes 4 w.toNat)) with
      | some v => agreeWrite g v (qual 0 4 0) s
      | none => agreeQual g (ageQual s g) s
    else agreeSubst g o.subst 0 s
  | none => if live && !x.held then agreeQual g (ageQual s g) s else agreeSubst g o.subst 0 s

/-- What Agree writes from the rack: the objects of every slot, and the twin word (R411, R424). -/
def rackAgree (s : State) : State :=
  let s := forEach (fins 16) (fun i s =>
    if s.rck.parts[i].left then
      nvEvent Ev.rckPartnerLeft (w32 i.val) 0#32 (modSlot i (fun x => { x with left := false }) s)
    else s) s
  match s.olc.active with
  | none => s
  | some im =>
    let s := forEach im.io.rack (fun r s =>
      if h : r.1 < 16 then
        let i : Fin 16 := ⟨r.1, h⟩
        let s := forEach (r.2.objects.filter (fun o => o.id = r.1)) (rackObject i) s
        modSlot i (fun x => { x with held := x.held && !(x.st = .admitted && x.snap.isSome) }) s
      else s) s
    let s := match im.io.twinWord with
      | some a => agreeWrite ⟨true, a⟩ s.rck.twinWord (qual 0 4 0) s
      | none => s
    modRck (fun r => { r with twinWord := 0#32 }) s

/-! ### The equalisation stream (R416 to R420) -/

/-- A stream as bytes: header, pages, and the end record with the CRC of everything before it (R416, log entry 18). -/
def EqStream.bytes (x : EqStream) : List Byte :=
  let n := eqBytes x.all.length
  let body := leBytes 8 x.cycle ++ leBytes 8 x.tb ++ leBytes 4 x.id.toNat ++ leBytes 4 n ++ leBytes 4 x.mask.toNat ++
    leBytes 4 0 ++ x.all.flatMap (fun p => leBytes 4 p.part.val ++ leBytes 4 p.ofs ++ p.data)
  body ++ leBytes 8 (crc64 body).toNat ++ leBytes 8 0

/-- Little-endian words of a byte list, at most `n` of them. -/
def wordsOf : Nat → List Byte → List Word
  | 0, _ => []
  | n + 1, bs => if bs.isEmpty then [] else w32 (ofLe (bs.take 4)) :: wordsOf n (bs.drop 4)

/-- Every data page of a partition, with the pages of the NEXT copy that hold its boundary signals (R416, R417). -/
def allPages (s : State) (p : PartId) : List (PartId × Nat) :=
  let next := ((sliceSigs s p).filter (·.area = .boundary)).foldl (fun l g => insNat (slicePage s p g) l) []
  ((List.range (regionPages s p)).filter (dataPage s p) ++ next).map (fun k => (p, k))

/-- Every data page of some partitions becomes owed (R417, R421). -/
def oweAll (ps : List PartId) (s : State) : State :=
  if !s.rck.twinEnAct then s
  else
    let new := ps.flatMap (allPages s)
    modRck (fun r => { r with owed := r.owed.filter (fun x => !ps.contains x.1) ++ new }) s

/-- The stream of the cycle that begins at this boundary, before any page (R416). -/
def eqBlank (s : State) : EqStream :=
  { cycle := s.scn.cycle, tb := s.scn.bTb, id := (match s.olc.active with
      | some im => im.setId
      | none => 0#32), mask := 0#5, first := [], pages := [] }

/-- Every data page is owed when the partner is first locked (R417). That it is, comes to the ACTIVE by no command: `w`
is a free value (log entry 19). -/
def eqMeet (w : Word) (s : State) : State :=
  if s.rck.peerMet || !bit s.rck.pres 15 || !bit w 2 then s
  else oweAll (fins 5) (modRck (fun r => { r with peerMet := true }) s)

/-- The owed pages of a partition that has no Solve to end in the cycle, or has none: its state stands, and they go into
the stream as the cycle ends (R417, R420). -/
def eqIdle (s : State) : State := forEach (fins 5) (fun p s => match s.rck.building with
  | some b =>
    if bit b.mask p.val || s.parts[p].st = .solving || (owedOf s p).isEmpty then s
    else eqTake p (owedOf s p) [] s
  | none => s) s

/-- What the boundary does for the ACTIVE's equaliser: pages of a stream that the partner has not applied are owed
again, the stream of the ending cycle opens in the window, and the next one begins. Whether the partner applied the
stream it has read, whether it is equal, and of which partitions an activation in it makes the pages owed (R421), comes
to the ACTIVE by no command: all are free values (log entry 19). -/
def eqTurn (s : State) : State :=
  if !(s.rck.twinEnAct && s.rck.role = .active) then modRck (fun r => { r with written := [], peerEqual := false }) s
  else
    let s := eqIdle s
    let whole := decide (s.rck.streamWords.length ≤ 2048 * s.rck.readHalves + 2048)
    let (w, s) := draw s
    let applied := s.rck.stream.isSome && whole && bit w 0 && !rackTooFast s
    let back := if applied then [] else match s.rck.stream with
      | some x => x.all.map EqPage.name
      | none => []
    let done := s.rck.building
    let words := match done with
      | some x => wordsOf 750000 x.bytes
      | none => []
    let s := modRck (fun r =>
      { r with written := [], stream := done, streamWords := words, readHalves := 0,
               owed := back.filter (fun x => !r.owed.contains x) ++ r.owed,
               lastKib := satOf 12 ((4 * words.length + 1023) / 1024), building := some (eqBlank s) }) s
    let s := oweAll ((fins 5).filter (fun p => bit w (3 + p.val))) (eqMeet w s)
    modRck (fun r =>
      { r with peerEqual := applied && r.owed.isEmpty && bit w 1 && r.peerMet && bit r.pres 15 }) s

/-- The pages of a complete stream, as bytes after the header. -/
def eqPages : Nat → List Byte → List (Nat × Nat × List Byte)
  | 0, _ => []
  | n + 1, bs => (ofLe (bs.take 4), ofLe ((bs.drop 4).take 4), (bs.drop 8).take 4096) :: eqPages n (bs.drop 4104)

/-- One page written into the three banks at its region offset, with the signals that stand in it (R418). A page beyond the
region is one of the NEXT copy. A Heel that runs there notes it (R72). -/
def eqWrite (p : PartId) (ofs : Nat) (bs : List Byte) (s : State) : State :=
  match regionOf s p with
  | none => s
  | some (b, n) =>
    let s := if ofs + 4096 ≤ n then noteDirty p (ofs / 4096) (bankPutAll (b + ofs) bs s) else s
    forEach ((sliceSigs s p).filter (fun g => slicePage s p g = ofs / 4096)) (fun g s =>
      let v := w32 (ofLe ((bs.drop (slicePlace p g)).take 4))
      if g.area = .internal then forEach (fins 3) (fun l => modImg l (fun m =>
        { m with ints := vupd m.ints p (fun x => SMap.set 0#32 x g.key (g.norm v)) })) s
      else setCur g v s) s

/-- The stream that the module has read is applied, or discarded (R418). One read over an RBCLK of its own that is too fast
fails (R440). The answer says whether it was applied. -/
def eqApply (s : State) : Bool × State :=
  let bytes := s.rck.rxWords.flatMap (fun w => leBytes 4 w.toNat)
  let (h, n) := eqHeader bytes
  let s := modRck (fun r => { r with rxWords := [] }) s
  if bytes.length < 48 || n < 48 || bytes.length < n then (false, s)
  else
    let crc := BitVec.ofNat 64 (ofLe ((bytes.drop (n - 16)).take 8))
    if crc ≠ crc64 (bytes.take (n - 16)) || (s.rck.role = .active && rackTooFast s) then (false, nvEvent Ev.rckEqCrc 15#32 0#32 s)
    else if (match s.rck.applied with
      | some c => decide (h.cycle ≤ c)
      | none => false) then (false, s)
    else
      let pages := eqPages ((n - 48) / 4104) (bytes.drop 32)
      let s := forEach pages (fun x s => if hp : x.1 < 5 then eqWrite ⟨x.1, hp⟩ x.2.1 x.2.2 s else s) s
      (true, modRck (fun r => { r with applied := some h.cycle, appliedId := h.id }) s)

/-! ### Roles, hand-over and takeover (R412 to R424) -/

/-- The role changes at the end of START, or as the wait of position B ends (R413). -/
def becomeActive (s : State) : State := modRck (fun r => { r with role := .active, peer := false }) s

/-- TWIN_EQUAL and TWIN_NOT_EQUAL on each change of EQUAL (R419). -/
def setEqual (e : Bool) (s : State) : State :=
  if s.rck.equal = e then s
  else nvEvent (if e then Ev.twinEqual else Ev.twinNotEqual) 15#32 0#32 (modRck (fun r => { r with equal := e }) s)

/-- The outputs that follow no code go off: those of a STANDBY stay off (R414). -/
def latchesOff (s : State) : State := forEach chans (fun ch s => modOut ch (OutCh.setLatch false s.tb) s) s

/-- The module becomes STANDBY (R414, R415): nothing it sent is still due. -/
def becomeStandby (s : State) : State :=
  let s := modRck (fun r => { r with role := .standby, lock := false, peerEqual := false, loaded := false,
                                     applied := none, rxWords := [], bndMissed := 0, takeover := false, dual := false,
                                     safeDue := false, written := [], building := none }) (setEqual false s)
  ubDark s

/-- The role at the end of START (R413). TWIN_EN takes effect here only (R427). -/
def twinStart (s : State) : State :=
  let s := modRck (fun r => { r with twinEnAct := r.twinEnSh, autoAct := r.autoSh, roleFrom := s.tb }) s
  if !s.rck.twinEnAct then modRck (fun r => { r with role := .single }) s
  else if s.rck.peer then latchesOff (becomeStandby s)
  else if positionB s then modRck (fun r => { r with role := .single }) s
  else becomeActive s

/-- TWIN_ROLE_TIMEOUT (R413): no TW_ALIVE within 2 s of the end of START. -/
def execTwinRoleTimeout (s : State) : Host.Outcome State Fault Refusal :=
  .next (
    if s.rck.twinEnAct && s.rck.role = .single && s.scn.mode.bounded && !s.rck.peer then
      let s := becomeActive (advanceTo (s.rck.roleFrom + 2 * secT) s)
      let s := modRck (fun r => { r with solveFrom := s.scn.cycle + 1 }) s
      forEach (fins 2) (fun b s => if s.ub[b].st = .standby then ubRestart b s else s) s
    else s)

/-- TWIN_DUAL_ACTIVE (R413). -/
def execTwinDualActive (s : State) : Host.Outcome State Fault Refusal :=
  .next (
    if s.rck.twinEnAct && s.rck.role = .active then
      let s := modRck (fun r => { r with peer := true }) s
      if positionB s then fatalEvent Ev.twinDualActive 15#32 0#32 (modRck (fun r => { r with dual := true, dualSeen := true }) s) else s
    else s)

/-- A signed number of nanoseconds in a register that saturates (RCK_TWIN_OFS). -/
def satInt32 (n : Int) : Word :=
  if n < -2147483648 then 0x80000000#32 else if 2147483647 < n then 0x7FFFFFFF#32 else BitVec.ofInt 32 n

/-- The lock is lost (R415). -/
def lockLost (s : State) : State :=
  if s.rck.lock then nvEvent Ev.twinLockLost 15#32 0#32 (modRck (fun r => { r with lock := false }) s) else s

/-- TW_BND_PULSE (R413, R415): the offset of the own B is shown and the lock judged. The pulse comes with TW_ALIVE, so
a module without a role becomes STANDBY. Slewing moves no value that the model holds but the trim that serves the lock, a free
value within ±50 ppm (R438, log entry 22): TB is the module's own time (log entry 21). -/
def execTwBndPulse (ofs : Int) (s : State) : Host.Outcome State Fault Refusal :=
  .next (
    if s.rck.role = .active then s
    else
      let s := modRck (fun r => { r with peer := true }) s
      let s := if s.rck.twinEnAct && s.rck.role = .single && s.scn.mode.bounded then latchesOff (becomeStandby s) else s
      if s.rck.role ≠ .standby then s
      else
        let (w, s) := draw s
        let trim := BitVec.ofInt 16 (w.toNat % 10001 - 5000)
        let s := { s with clk := { s.clk with trim := trim } }
        let s := modRck (fun r => { r with ofsNs := satInt32 ofs, bndMissed := 0 }) s
        if ofs.natAbs ≤ 30 then modRck (fun r => { r with lock := true }) s else lockLost s)

/-- TW_ALIVE_LOSS (R413, R424): TW_ALIVE absent for 1 ms. No module sees its partner any more; an equal STANDBY with
AUTO_TAKE takes over at its next boundary. -/
def execTwAliveLoss (s : State) : Host.Outcome State Fault Refusal :=
  .next (
    if s.rck.peer then
      modRck (fun r => { r with peer := false,
                                takeover := r.takeover || (r.role = .standby && r.equal && r.autoAct) }) s
    else s)

/-- TW_EMIT_PULSE (R422): the former ACTIVE's hold-over ends 1 ms later. -/
def execTwEmitPulse (s : State) : Host.Outcome State Fault Refusal :=
  .next (
    if s.rck.holdOver = some s.scn.cycle && s.rck.holdEmit.isNone then modRck (fun r => { r with holdEmit := some s.tb }) s
    else s)

/-- The hold-over ends: the held credits end, and the channels without a code go off (R414, R422). -/
def holdEnd (s : State) : State :=
  let s := latchesOff (modRck (fun r => { r with holdOver := none, holdEmit := none }) s)
  refreshCodes (forEach chans (fun ch => modOut ch (fun o => { o with credit := none })) s)

/-- HOLD_OVER_END (R422): 1 ms after TW_EMIT. -/
def execHoldOverEnd (s : State) : Host.Outcome State Fault Refusal :=
  .next (match s.rck.holdOver, s.rck.holdEmit with
    | some _, some t => holdEnd (advanceTo (t + msT) s)
    | _, _ => s)

/-- What RCK_HANDOVER shows of a hand-over or takeover. -/
def noteHandover (cause lost : Nat) (s : State) : State :=
  modRck (fun r => { r with hoCause := BitVec.ofNat 2 cause, hoLost := BitVec.ofNat 2 lost,
                            hoCyc := BitVec.ofNat 28 s.scn.cycle }) s

/-- The ACTIVE hands over at this boundary: it becomes STANDBY and serves its last stream (R422). -/
def handOut (cause : Nat) (s : State) : State :=
  let s := logModule 16 (noteHandover cause 0 (nvEvent Ev.twinHandover 15#32 0#32 s))
  let s := becomeStandby s
  let s := if cause = 1 then s else latchesOff s
  modRck (fun r => { r with transfer := true, handCyc := s.scn.cycle, holdOver := if cause = 1 then some (s.scn.cycle + 1) else none,
                            holdEmit := none }) s

/-- The STANDBY becomes ACTIVE with a transfer (R422): it solves from the cycle after the transfer cycle. Why its partner
hands over comes to it by no command: `cause` is a free value, a command or SAFE (log entry 19). -/
def handIn (cause : Nat) (s : State) : State :=
  let s := logModule 16 (noteHandover cause 0 (nvEvent Ev.twinHandover 15#32 0#32 (setEqual false s)))
  let n := s.scn.cycle + 1
  ubTakeBus (modRck (fun r =>
    { r with role := .active, transfer := true, handCyc := s.scn.cycle, peer := false, lock := false, takeover := false, solveFrom := n,
             restrict := some n, emitDue := true, rxWords := [], owed := [], stream := none, streamWords := [],
             peerMet := true }) s)

/-- The lost cycles of a takeover, 1 or 2 (R424): `last` is the cycle whose state the ACTIVE last completed. -/
def cyclesLost (s : State) (last : Nat) : Nat :=
  let n := last - s.rck.applied.getD 0
  if n < 2 then 1 else 2

/-- The STANDBY takes over without a transfer, or goes on without the transfer's stream (R424). -/
def takeOver (last : Nat) (s : State) : State :=
  let lost := cyclesLost s last
  let s := logModule 17 (noteHandover 3 lost (nvEvent Ev.twinTakeover 15#32 (w32 lost) (setEqual false s)))
  let n := s.scn.cycle
  let s := modRck (fun r =>
    { r with twinWord := w32 lost, takeover := false, transfer := false, lock := false, solveFrom := n,
             restrict := some n, emitDue := true, building := some (eqBlank s) }) s
  if s.rck.role = .active then s
  else ubTakeBus (becomeActive (modRck (fun r =>
    { r with owed := [], stream := none, streamWords := [], peerMet := false }) s))

/-- Whether a STANDBY is equal (R419). Whether pages are owed at the ACTIVE, no record of the stream says: `w` is a free
value (log entry 19). -/
def isEqual (s : State) (w : Word) : Bool :=
  (match s.rck.applied with
    | some c => decide (c + 2 = s.scn.cycle)
    | none => false) &&
  bit w 0 && s.rck.lock && (match s.olc.active with
    | some im => im.setId = s.rck.appliedId
    | none => false) &&
  s.scn.mode = .run && s.err.vq.all (fun e => decide (e.cls ≠ .fatal))

/-- The commands of ring 0 that asked for a hand-over, with their completion (R422). -/
def answerHandover (status detail : Nat) (s : State) : State :=
  let mine := s.scn.reqs.filter (fun r => r.2 = .handover)
  let s := { s with scn := { s.scn with reqs := s.scn.reqs.filter (fun r => r.2 ≠ .handover) } }
  forEach mine (fun r s => complete r.1 status detail s) s

/-- Step 8 of R145 for the twin (R413, R415, R418, R419, R422, R424). `bndMissed` counts this boundary, whose TW_BND is
still to come, so that two missing ones make three (R415). Whether the partner hands over to this STANDBY at
this boundary is carried by no command: a free value decides (log entry 19); by command it does so only if this module is equal here. -/
def twinBoundary (s : State) : State :=
  if !s.rck.twinEnAct then answerHandover St.refused Dt.boundary s
  else match s.rck.role with
  | .single => s
  | .active =>
    if s.rck.dual then
      answerHandover St.refused Dt.boundary
        (latchesOff (becomeStandby (modRck (fun r => { r with transfer := false }) s)))
    else if s.rck.transfer then
      let (ok, s) := eqApply (modRck (fun r => { r with transfer := false }) s)
      if ok then s else takeOver (s.scn.cycle - 2) s
    else if s.rck.peerEqual && s.scn.reqs.any (fun r => r.2 = .handover) then
      answerHandover St.ok 0 (handOut 1 s)
    else
      let s := answerHandover St.refused Dt.boundary s
      if s.rck.safeDue then handOut 2 s else s
  | .standby =>
    let s := if s.rck.holdOver.any (fun c => decide (c < s.scn.cycle)) then holdEnd s else s
    if s.rck.transfer then modRck (fun r => { r with transfer := false }) s
    else
      let s := modRck (fun r => { r with bndMissed := r.bndMissed + 1 }) s
      let s := if 3 ≤ s.rck.bndMissed then lockLost s else s
      let (_, s) := eqApply s
      let was := s.rck.equal
      if s.rck.takeover then takeOver (s.scn.cycle - 1) s
      else
        let (w, s) := draw s
        let cause := if bit w 2 then 2 else 1
        if was && s.rck.peer && bit w 1 && (cause = 2 || isEqual s w) then handIn cause s else setEqual (isEqual s w) s

/-- Step 4 of R145: the shadows of the rack block. TWIN_EN stays as it was at START (R427). -/
def rackShadows (s : State) : State := modRck (fun r => { r with autoAct := r.autoSh, limitAct := r.limitSh }) s

/-- The end of an Emit: the mirror, and TW_EMIT after the first Emit of a new ACTIVE (R407, R422). -/
def rackEmit (p : PartId) (s : State) : State :=
  let s := mirEmit p s
  if s.rck.emitDue then modRck (fun r => { r with emitDue := false, emitSent := r.emitSent + 1 }) s else s

/-- The level of the output TW_ALIVE (R412): a 100 kHz square wave while the module is ACTIVE and a triad runs. -/
def twAlive (s : State) : Bool :=
  s.rck.role = .active && (fins 5).any (formed s) && decide (s.tb / 500 % 2 = 0)

/-- The level of the output TW_BND (R412): a pulse of 100 ns from each B of the ACTIVE. -/
def twBnd (s : State) : Bool :=
  s.rck.role = .active && s.scn.mode.bounded && decide (s.scn.cycle ≠ 0 ∧ s.scn.bTb ≤ s.tb ∧ s.tb < s.scn.bTb + 10)

/-- The rack bus in SHUTDOWN: no role any more, and not equal, since the mode is not RUN (R404, R419, R488). -/
def rackStop (s : State) : State := modRck (fun r => { r with role := .single, transfer := false }) (setEqual false s)

end Sys2Proof.Machine
end

