-- ==== Sys2Proof/Machine/Clock.lean ====
section
/-!
DEFINITION. Clocks (R429 to R444): the clock monitor, the reference switch and its escape, the return to XO, REFIN and
PPS, and the clock gates.
-/
namespace Sys2Proof.Machine

open Sys2Proof

/-- A change of the clock block. -/
def modClk (f : Clk → Clk) (s : State) : State := { s with clk := f s.clk }

/-! ### The monitor and the reference switch (R432 to R436) -/

/-- A monitor window is in range from 973 to 1,075 (R432). -/
def winInRange (count : Nat) : Bool := decide (973 ≤ count ∧ count ≤ 1075)

/-- MONITOR_WINDOW (R432): no window ends while IO is failed (R436). A window out of range fails XO while TB runs
from it. -/
def execMonitorWindow (count : Nat) (s : State) : Host.Outcome State Fault Refusal :=
  .next (
    if !s.clk.ioOk then s
    else
      let ok := winInRange count
      let s := modClk (fun c => { c with monCount := satOf 11 count, monSeen := true, xoInRange := ok,
                                         goodWins := if ok then c.goodWins + 1 else 0,
                                         xoStable := c.xoStable && ok }) s
      if !ok && !s.clk.srcIo && s.clk.switchTo.isNone then
        modClk (fun c => { c with xoFailed := true, fails := satInc c.fails, switchTo := some true }) s
      else s)

/-- The reference switch to IO completes: TB runs from IO, and CLK_XO_FAIL is raised (R433, R369). -/
def switchToIo (s : State) : State :=
  canOnIo (xoFailEvent (s.clk.monCount.setWidth 32) (modClk (fun c => { c with srcIo := true, switchTo := none }) s))

/-- REFERENCE_SWITCH (R434): on the edges of both references. A failed IO has no edge at which it could be taken. -/
def execReferenceSwitch (s : State) : Host.Outcome State Fault Refusal :=
  .next (if s.clk.switchTo = some true && s.clk.ioOk then switchToIo s else s)

/-- STOPPED_SOURCE_ESCAPE (R434): the outgoing reference shows no edge for 8 cycles of the incoming one, and the switch
completes anyway. -/
def execStoppedSourceEscape (s : State) : Host.Outcome State Fault Refusal :=
  .next (
    if s.clk.switchTo = some true && s.clk.ioOk then
      switchToIo (nvEvent Ev.clkEscape 0#32 0#32 (modClk (fun c => { c with escape := true }) s))
    else s)

/-- XO_RETURN_REQUEST (R435). -/
def execXoReturnRequest (s : State) : Host.Outcome State Fault Refusal :=
  .next (onReg 0x804 (modClk (fun c => { c with retReq := true })) s)

/-- The reference switch moves to XO (R431, R434, R435). An IO that shows no edge is left by the escape; PLL-T has its
reference again. -/
def switchToXo (s : State) : State :=
  let s := if s.clk.ioOk || !s.clk.srcIo then s else
    nvEvent Ev.clkEscape 0#32 0#32
      (modClk (fun c => { c with escape := true, lockT := true, lockS := true, lockC := true }) s)
  modClk (fun c => { c with srcIo := false, switchTo := none, xoFailed := false, noRefFrom := none, stopped := false }) s

/-- The return to XO at a boundary, before step 1 of R145 (R435). A request that finds the conditions unmet is
discarded. The CAN channels reinitialise in step 4 of this boundary (R369). -/
def clkReturn (s : State) : State :=
  let c := s.clk
  let go := c.srcIo && c.xoStable && decide (c.retWinAct.toNat ≤ c.goodWins) && (c.autoAct || c.retReq)
  let s := modClk (fun c => { c with retReq := false }) s
  if go then nvEvent Ev.clkXoOk 0#32 0#32 (switchToXo s) else s

/-- IO_FAIL (R436): the monitor is suspended; PLL-T has no reference if TB runs from IO, or XO is failed too. -/
def execIoFail (s : State) : Host.Outcome State Fault Refusal :=
  .next (
    if !s.clk.ioOk then s
    else
      let none_ := s.clk.srcIo || s.clk.xoFailed
      nvEvent Ev.clkIoFail 0#32 0#32
        (modClk (fun c => { c with ioOk := false, lockT := c.lockT && !none_, lockS := c.lockS && !none_,
                                   lockC := c.lockC && !none_,
                                   noRefFrom := if none_ then some s.tb else c.noRefFrom }) s))

/-- IO_EDGES_RETURN (R436): the monitor resumes its windows. -/
def execIoEdgesReturn (s : State) : Host.Outcome State Fault Refusal :=
  .next (
    if s.clk.ioOk then s
    else modClk (fun c => { c with ioOk := true, lockT := true, lockS := true, lockC := true, noRefFrom := none,
                                   stopped := false }) s)

/-- HOLDOVER_EXPIRY (R436): PLL-T has had no reference for 1 ms, or has lost its lock for more than 10 µs, which only
the command shows. Whether it stops altogether, and TB with it, is a free value (log entry 117). -/
def execHoldoverExpiry (s : State) : Host.Outcome State Fault Refusal :=
  .next (
    let s := match s.clk.noRefFrom with
      | some t => advanceTo (t + msT) s
      | none => s
    let (w, s) := draw s
    fatalEvent Ev.clkTbFail 0#32 0#32
      (modClk (fun c => { c with lockT := false, noRefFrom := none, stopped := bit w 0 }) s))

/-! ### REFIN and PPS (R437, R438) -/

/-- REFIN_LOCK (R437). -/
def execRefinLock (ofs : BitVec 16) (s : State) : Host.Outcome State Fault Refusal :=
  .next (modClk (fun c => { c with refLock := true, ofs := ofs }) s)

/-- REFIN_LOST (R437, R438): raised once for each loss; the trim is held. -/
def execRefinLost (s : State) : Host.Outcome State Fault Refusal :=
  .next (
    if s.clk.refLock then nvEvent Ev.refinLost 0#32 0#32 (modClk (fun c => { c with refLock := false }) s) else s)

/-- PPS_EDGE (R437). -/
def execPpsEdge (s : State) : Host.Outcome State Fault Refusal :=
  .next (modClk (fun c => { c with pps := BitVec.ofNat 64 s.tb, ppsOk := true }) s)

/-- PPS_TIMEOUT (R437): 1.1 s without an edge. -/
def execPpsTimeout (s : State) : Host.Outcome State Fault Refusal :=
  .next (
    if s.clk.ppsOk then
      modClk (fun c => { c with ppsOk := false }) (advanceTo (s.clk.pps.toNat + secT + 10 * 1000000) s)
    else s)

/-- The trim in a second (R438): at most 1 ppm towards REFIN, within ±50 ppm; what it takes, the offset loses. How
much of that bound it takes is a free value (log entry 22). -/
def trimStep (s : State) : State :=
  if s.clk.steerAct && s.clk.refLock && !s.clk.srcIo && s.rck.role ≠ .standby then
    let c := s.clk
    let (w, s) := draw s
    let part : Int := w.toNat % (min 100 c.ofs.toInt.natAbs + 1)
    let new := max (-5000) (min 5000 (c.trim.toInt + if c.ofs.toInt < 0 then -part else part))
    let d := new - c.trim.toInt
    modClk (fun c => { c with trim := BitVec.ofInt 16 new, ofs := BitVec.ofInt 16 (c.ofs.toInt - d) }) s
  else s

/-! ### Gates (R441 to R444) -/

/-- Whether a gate bit exists on the variant (R447). -/
def gateExists (s : State) (g : Gate) : Bool :=
  if g.val < 4 then decide (g.val < s.variant.cans) else if g = 5 then s.variant.ubb
  else if g = 7 then s.variant.dio else true

/-- GATE_REQUEST (R441): latched; ignored, with CFG_WHILE_RUNNING, for the rack bus of a twin. -/
def execGateRequest (g : Gate) (s : State) : Host.Outcome State Fault Refusal :=
  .next (onReg 0x820 (fun s =>
    if !gateExists s g then s
    else if g = 6 && s.rck.role ≠ .single then nvEvent Ev.cfgWhileRunning 0x820#32 0#32 s
    else if bit s.clk.gateReq g.val then s
    else modClk (fun c => { c with gateReq := bitSet c.gateReq g.val true, gatePend := bitSet c.gatePend g.val true,
                                   gateSince := vset c.gateSince g s.tb }) s) s)

/-- GATE_WITHDRAW (R441): a request cleared before its gate closes. -/
def execGateWithdraw (g : Gate) (s : State) : Host.Outcome State Fault Refusal :=
  .next (onReg 0x820 (fun s =>
    if bit s.clk.gatePend g.val then
      modClk (fun c => { c with gateReq := bitSet c.gateReq g.val false, gatePend := bitSet c.gatePend g.val false }) s
    else s) s)

/-- A gate bit of a CAN channel. -/
def gateCan (g : Gate) : Option (Fin 4) := if h : g.val < 4 then some ⟨g.val, h⟩ else none

/-- A gate bit of a Ubuno bus. -/
def gateUb (g : Gate) : Option (Fin 2) := if g = 4 then some 0 else if g = 5 then some 1 else none

/-- The gate closes: what the block holds is kept for reads, and the block stands still (R443, R355, R254). -/
def gateShut (g : Gate) (s : State) : State :=
  let s := modClk (fun c => { c with gatePend := bitSet c.gatePend g.val false,
                                     gateClosed := bitSet c.gateClosed g.val true }) s
  match gateCan g, gateUb g with
  | some n, _ =>
    let s := modClk (fun c => { c with heldCan := vset c.heldCan n (some s.can[n]) }) s
    modCan n (fun x => { x with st := .off }) s
  | _, some b =>
    let s := modClk (fun c => { c with heldUb := vset c.heldUb b (some s.ub[b]), heldIo := vset c.heldIo b c.srcIo }) s
    modUb b (fun x => { x with sent := none }) s
  | _, _ =>
    if g = 6 then modClk (fun c => { c with heldRck := some s.rck }) s
    else nvEvent Ev.inClockGated 0#32 0#32 s

/-- Whether a block is idle as far as the state shows it: no frame of the module is on the wire (R441). -/
def gateIdle (s : State) (g : Gate) : Bool := match gateCan g, gateUb g with
  | some n, _ => s.can[n].reqs.all (fun r => !r.onWire)
  | _, some b => !ubOnAir s b false && !ubOnAir s b true
  | _, _ => true

/-- GATE_CLOSE (R441): the block signals idle. -/
def execGateClose (g : Gate) (s : State) : Host.Outcome State Fault Refusal :=
  .next (if bit s.clk.gatePend g.val && gateIdle s g then gateShut g s else s)

/-- Every filter of every input starts empty (R250). -/
def emptyFilters (s : State) : State :=
  { s with dio := { s.dio with ins := vmap (fun x => { x with chains := Vector.replicate 3 Chain.init }) s.dio.ins } }

/-- A forced gate resets its block (R442): what it restarts from as the gate reopens (R444). -/
def gateReset (g : Gate) (s : State) : State := match gateCan g, gateUb g with
  | some n, _ => canRestart n s
  | _, some b => if s.ub[b].st = .off then s else ubRestart b s
  | _, _ => if g = 6 then rackRestart s else emptyFilters s

/-- GATE_FORCE (R442): pending for 1,024 ticks. The block is reset. The frame on the wire is cut off and its request ends NOT_SENT; a rack read
in progress ends with NACK (R402, R404); a host read in progress completes with Completer Abort (`bar0Read`). -/
def execGateForce (f : GateForceIn) (s : State) : Host.Outcome State Fault Refusal :=
  .next (
    let g := f.gate
    if bit s.clk.gatePend g.val then
      let s := advanceTo (s.clk.gateSince[g] + 1024) s
      let s := match gateCan g with
        | some n => match s.can[n].reqs.find? (·.onWire) with
          | some r => canFinish n r 7 0 (canSuspect s n r.entry) false (canMeasure n r none s)
          | none => s
        | none => s
      let s := match gateUb g with
        | some b => modUb b (fun x => { x with sent := none }) s
        | none => s
      let s := if g.val = rackGate && f.access then modRck (fun r => { r with answer := none, given := satInc r.given }) s
        else s
      let s := gateShut g (gateReset g s)
      nvEvent Ev.clkGateForced (w32 (2 ^ g.val)) 0#32
        (modClk (fun c => { c with gateForced := bitSet c.gateForced g.val true }) s)
    else s)

/-- GATE_REOPEN (R444): the block restarts from reset with its active configuration. -/
def execGateReopen (g : Gate) (s : State) : Host.Outcome State Fault Refusal :=
  .next (onReg 0x820 (fun s =>
    if !bit s.clk.gateClosed g.val then s
    else
      let s := modClk (fun c => { c with gateReq := bitSet c.gateReq g.val false,
                                         gateClosed := bitSet c.gateClosed g.val false }) s
      gateReset g (modClk (fun c => match gateCan g, gateUb g with
        | some n, _ => { c with heldCan := vset c.heldCan n none }
        | _, some b => { c with heldUb := vset c.heldUb b none }
        | _, _ => if g = 6 then { c with heldRck := none } else c) s)) s)

/-- Step 4 of R145: the shadows of the clock block (R440, R447). -/
def clkShadows (s : State) : State :=
  modClk (fun c => { c with retWinAct := c.retWinSh, steerAct := c.steerSh, autoAct := c.autoSh, sscAct := c.sscSh,
                            divAct := c.divSh }) s

/-- Whether a boundary changes PLLC_MUL (R440). -/
def pllcChanges (s : State) : Bool := fld s.clk.divSh 11 5 ≠ fld s.clk.divAct 11 5

end Sys2Proof.Machine
end

