-- ==== Sys2Proof/Machine/CrcUnit.lean ====
section
/-!
DEFINITION. The check-value units (R448 to R457): port mode, check jobs, and what a boundary does to them.
-/
namespace Sys2Proof.Machine

open Sys2Proof

/-- The base offset of a unit's registers (R457). -/
def crcBase (u : Fin 8) : Nat := 0x7000 + 0x40 * u.val

/-- A write to a port field: ignored with CFG_WHILE_RUNNING outside PORT (R457), else `f`; a block under test ignores it
(R490). -/
def onPort (u : Fin 8) (reg : Nat) (f : State → State) (s : State) : State :=
  onReg (crcBase u + reg) (fun s =>
    if s.crc[u].modeAct = 1#2 then f s else nvEvent Ev.cfgWhileRunning (w32 (crcBase u + reg)) 0#32 s) s

/-- A port write that BUSY drops (R450). -/
def unlessBusy (u : Fin 8) (f : State → State) (s : State) : State :=
  if s.crc[u].busy then nvEvent Ev.crcPortBusy (w32 u.val) 0#32 (modCrc u (fun x => { x with dropped := true }) s)
  else f s

/-- Bytes fed to a unit's running value. -/
def crcFeed (u : Fin 8) (bs : List Byte) (s : State) : State :=
  modCrc u (fun x => { x with run := crcUnitFeed u x.run bs }) s

/-- CRC_INIT (R450). -/
def execCrcInit (u : Fin 8) (s : State) : Host.Outcome State Fault Refusal :=
  .next (onPort u 4 (modCrc u (fun x => { x with run := crcInitOf u })) s)

/-- CRC_DATA (R450). -/
def execCrcData (u : Fin 8) (v : Word) (s : State) : Host.Outcome State Fault Refusal :=
  .next (onPort u 8 (unlessBusy u (crcFeed u (leBytes 4 v.toNat))) s)

/-- CRC_DATA_B (R450). -/
def execCrcDataB (u : Fin 8) (v : Word) (s : State) : Host.Outcome State Fault Refusal :=
  .next (onPort u 12 (unlessBusy u (crcFeed u [v.setWidth 8])) s)

/-- CRC_GO (R450): the DMA goes over the range that the registers name now. -/
def execCrcGo (u : Fin 8) (s : State) : Host.Outcome State Fault Refusal :=
  .next (onPort u 4 (unlessBusy u (modCrc u (fun x =>
    { x with busy := true, goOfs := x.dmaOfs, goBank := x.dmaBank, goLen := x.dmaLen }))) s)

/-- The comparison of RES with EXP (R451). -/
def crcCompare (u : Fin 8) (s : State) : State :=
  let x := s.crc[u]
  let good := crcTrim u (crcRes u x.run) = crcTrim u x.exp
  let s := modCrc u (fun x => { x with checkDue := false, ok := good, mismatch := x.mismatch || !good,
                                       count := if good then x.count else satInc x.count }) s
  if good then s
  else
    let s := nvEvent Ev.crcPortMismatch (w32 u.val) 0#32 s
    if x.ie then signalVec (vecOf x.vec) s else s

/-- CRC_CHECK (R451): performed once BUSY is 0. -/
def execCrcCheck (u : Fin 8) (s : State) : Host.Outcome State Fault Refusal :=
  .next (onPort u 4 (fun s =>
    if s.crc[u].busy then modCrc u (fun x => { x with checkDue := true }) s else crcCompare u s) s)

/-- The bank that a port DMA reads (R450). -/
def crcBank (b : BitVec 2) : Lane := if b = 2#2 then 1 else if b = 3#2 then 2 else 0

/-- What the system area of a bank holds: its copies of the process image, the force table, the image's tables and the
Survey table (R14). -/
def sysHolds (s : State) (l : Lane) : LaneImg × List Force × Option Image × List Word :=
  (s.pim.img[l], s.pim.forceTab[l], s.olc.images[l], s.svy.table[l])

/-- Whether the 64-bit word of a bank offset passes its ECC check, in the system area too: State names the failing words there
by what they hold, and which offsets they have is a free value (log entry 91). -/
def dmaIntact (s : State) (l : Lane) (a : Nat) : Bool :=
  intact s l a && (decide (a < sysArea) || s.sysEcc[l].isEmpty || !Config.sysFails s.sysEcc[l] (a / 8))

/-- The bytes that a DMA feeds: up to the first word that fails its ECC check; the offset wraps at 4 GiB. A byte of the
system area is a free function of what the area holds (log entry 91). -/
def crcDmaBytes (s : State) (l : Lane) (ofs n : Nat) : List Byte × Bool :=
  let places := (List.range n).map (fun i => (ofs + i) % 2 ^ 32)
  let good := places.takeWhile (dmaIntact s l)
  (good.map (fun a => if sysArea ≤ a then Config.sysByte (sysHolds s l) a else laneByte s l a), decide (good.length < n))

/-- CRC_DMA_END (R450, R451); none in a block under test (R490). -/
def execCrcDmaEnd (u : Fin 8) (s : State) : Host.Outcome State Fault Refusal :=
  .next (
    let x := s.crc[u]
    if !x.busy || s.bst.block = 0x0E#8 then s
    else
      let (bs, bad) := crcDmaBytes s (crcBank x.goBank) x.goOfs.toNat x.goLen.toNat
      let s := crcFeed u bs (modCrc u (fun x => { x with busy := false, ecc := x.ecc || bad }) s)
      if x.checkDue then crcCompare u s else s)

/-! ### Check jobs (R452 to R454) -/

/-- The passes of stopped partitions do not run (R454). -/
def crcDrop (u : Fin 8) (s : State) : State :=
  modCrc u (fun x => { x with jobs := x.jobs.filter (fun j => decide (s.parts[j.part].st ≠ .stopped)) }) s

/-- Whether every 64-bit word that holds a byte of a range of a bank is intact. -/
def intactRange (s : State) (l : Lane) (ofs n : Nat) : Bool :=
  s.ecc[l].all (fun w => decide (w < ofs / 8 ∨ (ofs + n + 7) / 8 ≤ w))

/-- Whether a pass finds its expected value (R453). -/
def jobGood (s : State) (u : Fin 8) (p : PartId) (j : CheckJob) (l : Lane) : Bool :=
  match regionOf s p with
  | none => false
  | some (b, _) =>
    intactRange s l (b + j.data) j.len && intactRange s l (b + j.exp) 8 &&
      crcTrim u (crcUnitOf u ((List.range j.len).map (fun i => laneByte s l (b + j.data + i)))) =
        crcTrim u (BitVec.ofNat 64 (ofLe ((List.range 8).map (fun i => laneByte s l (b + j.exp + i)))))

/-- CRC_JOB_PASS_END (R453, R454): a unit outside JOBS serves no job (R449). -/
def execCrcJobPassEnd (u : Fin 8) (s : State) : Host.Outcome State Fault Refusal :=
  .next (
    let s := crcDrop u s
    if s.crc[u].modeAct ≠ 2#2 then s
    else match s.crc[u].jobs with
    | [] => s
    | r :: rest =>
      let s := modCrc u (fun x => { x with jobs := rest, doneRun := satInc x.doneRun }) s
      match (partDesc s r.part).bind (fun d => d.jobs[r.job]?) with
      | none => s
      | some j =>
        if jobGood s u r.part j r.bank then s
        else
          let s := if s.crcCap.valid then s else
            { s with crcCap := { valid := true, bank := BitVec.ofNat 2 (r.bank.val + 1),
                                 part := BitVec.ofNat 3 r.part.val, unit := BitVec.ofNat 3 u.val,
                                 job := BitVec.ofNat 5 r.job, cyc := w32 s.scn.cycle } }
          match triadOf s r.part with
          | some t => vitalKeeps Ev.crcMismatch (w32 u.val) (w32 r.job) t s
          | none => s)

/-- At B: jobs not finished are abandoned, and DONE takes the passes of the ending cycle (R454, R457). -/
def crcTurn (s : State) : State :=
  forEach (fins 8) (fun u s =>
    let s := crcDrop u s
    let late := s.crc[u].jobs.foldl (fun (l : List (PartId × Nat)) j => addNew (j.part, j.job) l) []
    let s := modCrc u (fun x =>
      { x with jobs := [], done := x.doneRun, doneRun := 0#16, late := satOf 16 (x.late.toNat + late.length) }) s
    match late with
    | [] => s
    | (_, j) :: _ => nvEvent Ev.crcJobLate (w32 u.val) (w32 j) s) s

/-- Whether a check job of an image names a unit. -/
def jobNames (im : Image) (u : Fin 8) : Bool :=
  (fins 5).any (fun p => match im.parts[p] with
    | some x => x.desc.jobs.any (fun j => j.valid && j.unit = u)
    | none => false)

/-- Step 4 of R145: the modes of the units (R449). -/
def crcModes (s : State) : State :=
  forEach (fins 8) (fun u s =>
    let x := s.crc[u]
    if x.modeSh = x.modeAct then s
    else if x.modeAct = 2#2 && (match s.olc.active with
        | some im => jobNames im u
        | none => false) then
      nvEvent Ev.crcModeRefused (w32 u.val) 0#32 (modCrc u (fun x => { x with modeSh := x.modeAct }) s)
    else modCrc u (fun x => { x with modeAct := x.modeSh, run := crcResetOf u, busy := false, checkDue := false }) s) s

end Sys2Proof.Machine
end

