-- ==== Sys2Proof/Machine/Dio.lean ====
section
/-!
DEFINITION. Local inputs and outputs (R248 to R273, R542): the classes and filters of input samples, the dynamic code
at its chip boundaries, what the terminals read, off-pulse tests, overload and stuck-on channels, silence, and what is
latched at B.
-/
namespace Sys2Proof.Machine

open Sys2Proof

def modDio (f : Dio → Dio) (s : State) : State := { s with dio := f s.dio }

/-! ### Input samples (R249 to R252) -/

/-- The class of a sample in the MONITORED mode, and whether it is flagged as out of band (R249). -/
def classMonitored (r : Reading) : InCls × Bool :=
  if 5000 < r.ua then (.closed, false)
  else if r.ua < 500 then (.brk, false)
  else (.open_, !decide (1500 ≤ r.ua ∧ r.ua ≤ 3500))

/-- The same in TYPE1 and TYPE3, whose threshold in millivolts is `th` (R249). -/
def classTyped (th : Int) (r : Reading) : InCls × Bool :=
  if th ≤ r.mv ∧ 2000 ≤ r.ua then (.closed, false)
  else (.open_, !decide (r.mv ≤ 5000 ∨ (r.ua < 2000 ∧ r.mv ≤ th)))

/-- The class under an active configuration: MODE 0x0 is TYPE1, 0x1 TYPE3, 0x2 MONITORED. -/
def classOf (cfg : Word) (r : Reading) : InCls × Bool := match fld cfg 30 2 with
  | 0 => classTyped 15000 r
  | 1 => classTyped 11000 r
  | _ => classMonitored r

/-- The samples at 10 MHz that a debounce filter asks for: FAST_OFF shortens a change away from CLOSED to 1 µs. -/
def debounceNeed (cfg : Word) (held : Option InCls) (raw : InCls) : Nat :=
  if bit cfg 28 && held.isSome && decide (raw ≠ .closed) then 10 else 10 * fld cfg 0 16

/-- One sample into the debounce filter (R250). -/
def debounceStep (cfg : Word) (x : InCls × Bool) (c : Chain) : Chain :=
  let run := if c.runCls = some x.1 then min (c.runLen + 1) 655350 else 1
  let band := if x.2 then min (c.bandLen + 1) 655350 else 0
  let need := debounceNeed cfg c.cls x.1
  let c := { c with runCls := some x.1, runLen := run, bandLen := band }
  if need ≤ run then { c with cls := some x.1, band := x.2 && decide (need ≤ band) } else c

/-- Samples per counter period: 1 µs, 10 µs, 100 µs or 1 ms. -/
def countPeriod (cfg : Word) : Nat := 10 ^ (fld cfg 16 2 + 1)

/-- One sample into the counter filter, which takes the last sample of each period (R250). -/
def counterStep (cfg : Word) (x : InCls × Bool) (c : Chain) : Chain :=
  if c.div + 1 < countPeriod cfg then { c with div := c.div + 1 }
  else
    let limit := fld cfg 20 8
    let cnt := if x.1 = .closed then min (c.cnt + 1) limit else c.cnt - 1
    let brk := if x.1 = .brk then min (c.brkRun + 1) limit else 0
    let band := if x.2 then min (c.bandLen + 1) limit else 0
    let c := { c with div := 0, cnt := cnt, brkRun := brk, bandLen := band }
    if cnt = limit then { c with cls := some .closed, band := false }
    else if cnt = 0 then
      { c with cls := some (if limit ≤ brk then .brk else .open_), band := x.2 && decide (limit ≤ band) }
    else c

/-- One sample of one chain. -/
def chainStep (cfg : Word) (r : Reading) (c : Chain) : Chain :=
  if bit cfg 29 then counterStep cfg (classOf cfg r) c else debounceStep cfg (classOf cfg r) c

/-- Whether the input filter clock stands still (R254). -/
def fclkGated (s : State) : Bool := bit s.clk.gateClosed 7

/-- INPUT_FILTER_SAMPLE (R250): one edge of the input filter clock, for every chain of every input. -/
def execInputFilterSample (rd : Vector (Vector Reading 3) 48) (s : State) : Host.Outcome State Fault Refusal :=
  .next (
    if !s.variant.dio || fclkGated s then s
    else modDio (fun d => { d with ins := vgen 48 (fun n =>
      { d.ins[n] with chains := vgen 3 (fun l => chainStep d.ins[n].cfgAct rd[n][l] d.ins[n].chains[l]) }) }) s)

/-- A change of configuration at a boundary (R252): the held class stays, the filters start anew from it, a
counter with the flag of the class it holds. -/
def inCfgChange (x : InCh) : InCh :=
  if x.cfgSh = x.cfgAct then x
  else
    let limit := fld x.cfgSh 20 8
    { x with cfgAct := x.cfgSh, chains := vmap (fun c =>
        { c with runCls := none, runLen := 0, div := 0,
                 cnt := if c.cls = some .closed then limit else 0,
                 bandLen := if bit x.cfgSh 29 && c.band then limit else 0,
                 brkRun := if c.cls = some .brk then limit else 0 }) x.chains }

/-! ### The code (R54 to R57) -/

/-- The seed of a channel's sequence: n + 1, and 25 + n for a brake channel; a gang takes its lowest member's. -/
def chipSeed (s : State) (ch : Chan) : BitVec 15 := BitVec.ofNat 15 ((chanLead s ch).val + 1)

/-- One chip of x^15 + x^14 + 1 (log entry 23 says which way the register runs). -/
def chipNext (x : BitVec 15) : BitVec 15 := (x <<< 1) ||| (if bit x 14 ^^ bit x 13 then 1#15 else 0#15)

/-- The code of a channel starts, seeded in every voter lane. -/
def codeStart (ch : Chan) (s : State) : State :=
  let seed := chipSeed s ch
  modOut ch (fun o =>
    { o with code := true, chips := Vector.replicate 3 seed, stuck := false,
             coilFrom := if 24 ≤ ch.val && !o.coil then some s.tb else none }) s

/-- A channel at a chip boundary: its code starts, or sends its next chip (R54, R56, R257). -/
def chipStep (ch : Chan) (s : State) : State :=
  if s.dio.outs[ch].code then modOut ch (fun o => { o with chips := vmap chipNext o.chips }) s
  else if codeOk s ch then codeStart ch s else s

/-- The first multiple of 8,333 at or after a tick. -/
def chipCeil (n : Nat) : Nat := (n + 8332) / 8333 * 8333

/-- CHIP_BOUNDARY (R54): the next chip boundary that has not passed. With PLL-T stopped none comes (R436). -/
def execChipBoundary (s : State) : Host.Outcome State Fault Refusal :=
  .next (
    if s.clk.stopped then s else
    let n := chipCeil s.tb
    let n := if n ≤ s.dio.chipAt then s.dio.chipAt + 8333 else n
    forEach chans chipStep (modDio (fun d => { d with chipAt := n }) (advanceTo n s)))

/-- What a voter lane sends at a tick of a chip period: a chip of 1 is high for 4,166 ticks and then low, a chip of 0 the
opposite (R54). -/
def chipLevel (chip : BitVec 15) (tick : Nat) : Bool := bit chip 14 == decide (tick % 8333 < 4166)

/-- The drive line of a channel (R56): the majority of the voter lanes' chips while the owning triad runs as a triad, the
agreement of the two that remain while it runs as a pair, and low while the code does not run. -/
def driveLine (s : State) (ch : Chan) : Bool :=
  let o := s.dio.outs[ch]
  let v := vgen 3 (fun l => chipLevel o.chips[l] s.tb)
  o.code && match (chanTriad s ch).bind (fun t => if s.triads[t].mode = .pair then s.triads[t].odd else none) with
    | some odd => (fins 3).all (fun l => l = odd || v[l])
    | none => maj3 v

/-- The low-side pole of a brake channel gets the same chips in opposite phase (R54), as does the pump of S2 (R255). -/
def driveLow (s : State) (ch : Chan) : Bool := s.dio.outs[ch].code && !driveLine s ch

/-! ### Terminals (R255 to R259, R269) -/

/-- Whether S1, or S2 or the low-side pole with `second`, is closed (R255, R256, R262, R265): closed while its pump is fed, by
the code or from the local oscillator that the latch of a non-vital channel enables, open while an off-pulse discharges the
pump, open 2.00 ms after the pump was last fed. Between, the spec gives only bounds. -/
def switchOn (s : State) (ch : Chan) (second : Bool) : Option Bool :=
  let o := s.dio.outs[ch]
  if o.code || (!o.vital && o.latch) then some true
  else if o.pulse && o.second == second then some false
  else if o.stopAt + 2 * msT ≤ s.tb then some false else none

/-- Current flows only while both switches are on (R255). -/
def flows (s : State) (ch : Chan) : Option Bool := match switchOn s ch false, switchOn s ch true with
  | some a, some b => some (a && b)
  | some false, none => some false
  | none, some false => some false
  | _, _ => none

/-- Whether a channel conducts: an output's terminal reads ON, both poles of a brake channel are on. -/
def conducts (ch : Chan) (o : OutCh) : Bool := o.termHigh && (ch.val < 24 || o.termLow)

/-- What a readback chain reads at a voltage in mV: ON at 15 V or more, OFF at 5 V or less (R255). Between them the spec
gives no reading: `free` stands for it. -/
def readback (mv : Int) (free : Bool) : Bool := if 15000 ≤ mv then true else if mv ≤ 5000 then false else free

/-- Whether a voltage lies between the thresholds of R255. -/
def unclear (mv : Int) : Bool := decide (5000 < mv ∧ mv < 15000)

/-- The Logbook offset of a channel's switching count (R501). -/
def switchOfs (ch : Chan) : Nat := if ch.val < 24 then 0x980 + 8 * ch.val else 0xA40 + 32 * (ch.val - 24)

/-- OUTPUT_TERMINAL_CHANGE (R255, R269): the three readback chains of a terminal, or of the poles of a brake channel, in
mV, and the coil current in mA. A restoration after an off-pulse is not counted, and a gang is counted on its lowest
member. The poles of a brake channel are read by the thresholds of R255 (log entry 102). -/
def execOutputTerminalChange (ch : Chan) (high low : Vector Int 3) (coilMa : Nat) (s : State) :
    Host.Outcome State Fault Refusal :=
  .next (
    if !s.variant.dio then s
    else
      let was := conducts ch s.dio.outs[ch]
      let w := Config.freeWord s.freeDraws
      let sbc := decide (24 ≤ ch.val)
      let coil := sbc && decide (50 ≤ coilMa)
      let s := if (fins 3).any (fun l => unclear high[l] || sbc && unclear low[l])
        then { s with freeDraws := s.freeDraws + 1 } else s
      let s := modOut ch (fun o =>
        { o with high := vgen 3 (fun l => readback high[l] (bit w l.val)),
                 low := vgen 3 (fun l => sbc && readback low[l] (bit w (3 + l.val))), coil := coil,
                 coilFrom := if coil || !o.code || !sbc then none
                   else if o.coil then some s.tb else o.coilFrom }) s
      let now := conducts ch s.dio.outs[ch]
      let counts := now && !was && !s.dio.outs[ch].restoring && decide (chanLead s ch = ch)
      let s := if counts then logAdd (switchOfs ch) 1 (modOut ch (fun o => { o with switched := satInc o.switched }) s)
        else s
      modOut ch (fun o => { o with restoring := if now then false else o.pulse || o.restoring }) s)

/-- OUT_OVERLOAD (R259): the channel, and its gang, is switched off and latched. -/
def execOutOverload (ch : Chan) (s : State) : Host.Outcome State Fault Refusal :=
  .next (
    if !s.variant.dio || s.dio.outs[ch].ovld then s
    else
      let s := forEach (gangOf s ch) (fun c => modOut c (fun o => { o.setLatch false s.tb with ovld := true })) s
      nvEvent Ev.outOverload (chanArg ch) 0#32 (latchEndsExercise ch (refreshCodes s)))

/-- OUT_STUCK_ON (R258): at least two chains read ON, or coil current flows, 5 ms after the code stopped. In a twin every
channel is judged by its current (R530). -/
def execOutStuckOn (ch : Chan) (chains : Vector Bool 3) (current : Bool) (s : State) :
    Host.Outcome State Fault Refusal :=
  .next (
    let o := s.dio.outs[ch]
    let on := if ch.val < 24 && !s.rck.twinEnAct then decide (2 ≤ (fins 3).countP (fun l => chains[l])) else current
    if !s.variant.dio || !o.vital || o.code || o.stuck || !on then s
    else
      let s := modOut ch (fun o => { o with stuck := true }) (advanceTo (o.stopAt + 5 * msT) s)
      fatalEvent Ev.outStuckOn (chanArg ch) 0#32 s)

/-- SBC_OPEN_LOAD (R268): an energised brake channel has had no coil current for 100 ms. It is raised once, until current
has flowed again or the code has started anew. -/
def execSbcOpenLoad (k : Fin 4) (s : State) : Host.Outcome State Fault Refusal :=
  .next (match s.dio.outs[sbcChan k].coilFrom with
    | some from_ =>
      let s := modOut (sbcChan k) (fun o => { o with coilFrom := none }) (advanceTo (from_ + 100 * msT) s)
      nvEvent Ev.sbcOpenLoad (chanArg (sbcChan k)) 0#32 s
    | none => s)

/-! ### Non-vital channels (R262) -/

/-- SILENCE_TIMEOUT (R262): the channel, and its gang, takes its silence behaviour until the next Emit for it. -/
def execSilenceTimeout (n : Fin 24) (s : State) : Host.Outcome State Fault Refusal :=
  .next (
    let lead := chanLead s (outChan n)
    let o := s.dio.outs[lead]
    if !s.variant.dio || o.vital || o.silFired || !s.scn.mode.bounded || standing s then s
    else
      let s := advanceTo (o.silFrom + o.silMsAct.toNat * msT) s
      forEach (gangOf s lead) (fun c => modOut c (fun x =>
        { x.setLatch (if o.silModeAct = 0#2 then false else if o.silModeAct = 1#2 then !x.ovld && !twinHeld s c else x.latch) s.tb with
            silFired := true })) s)

/-- Every non-vital channel is OFF: in SHUTDOWN (R262). -/
def nvOutsOff (s : State) : State := forEach chans (fun c s => modOut c (OutCh.setLatch false s.tb) s) s

/-! ### Off-pulse tests (R264 to R267) -/

/-- The TB of the next visit: the grid of INTERVAL_ACT ÷ 28 (R264). -/
def visitAt (s : State) : Nat :=
  s.dio.gridFrom + (s.dio.visits + 1) * s.dio.intervalAct.toNat * secT / 28

/-- Whether a position is tested at its visit: the lowest member of a vital gang that is energised, and nothing else
under test (R264, R290, R295). -/
def pulseDue (s : State) (ch : Chan) : Bool :=
  s.dio.outs[ch].vital && chanLead s ch = ch && s.dio.outs[ch].code && s.dio.test.isNone && s.saf.exer.isNone &&
    (fins 4).all (fun k => s.saf.brk[k].phase ≠ 1#2 && !s.saf.brk[k].starting)

/-- An off-pulse starts at the next chip boundary: the gang is suppressed (R265). -/
def pulseStart (ch : Chan) (s : State) : State :=
  let s := advanceTo (chipCeil s.tb) s
  let s := modDio (fun d => { d with test := some (ch, s.tb) }) s
  forEach (gangOf s ch) (fun c s => stopCode c (modOut c (fun o =>
    { o with pulse := true, heldHigh := o.termHigh, heldLow := o.termLow }) s)) s

/-- A position of the scheduler. -/
def visitChan (n : Nat) : Chan := ⟨n % 28, Nat.mod_lt _ (by decide)⟩

/-- Whether the running cycle is the transfer cycle of a hand-over or the one after it: the scheduler makes no visit in a
twin (R530). -/
def handing (s : State) : Bool :=
  s.rck.twinEnAct && s.rck.handCyc ≠ 0 && (s.scn.cycle = s.rck.handCyc || s.scn.cycle = s.rck.handCyc + 1)

/-- OFF_PULSE_VISIT (R264): only a visit in RUN moves the scheduler, none about a hand-over (R530). -/
def execOffPulseVisit (s : State) : Host.Outcome State Fault Refusal :=
  .next (
    if !s.variant.dio || s.scn.mode = .start then s
    else
      let s := modDio (fun d => { d with visits := d.visits + 1 }) (advanceTo (visitAt s) s)
      if s.scn.mode ≠ .run || handing s then s
      else
        let ch := visitChan s.dio.nextPos
        let s := modDio (fun d => { d with pos := ch.val, nextPos := (ch.val + 1) % 28 }) s
        if pulseDue s ch then pulseStart ch s else s)

/-- TEST_FAIL latches a gang, and the owner has a VITAL event (R266). -/
def testFail (ch : Chan) (code : Nat) (s : State) : State :=
  let s := forEach (gangOf s ch) (fun c => modOut c (fun o => { o with tfail := true, restoring := false })) s
  vitalForChan code ch (latchEndsExercise ch (refreshCodes s))

/-- OFF_PULSE_VERDICT (R265): two chip periods after T0 all chains read OFF, or a pole's coil current is below 50 mA,
and the switch passes; else it fails. On a pass the code restarts at this chip boundary. -/
def execOffPulseVerdict (chains : Vector Bool 3) (coil : Bool) (s : State) : Host.Outcome State Fault Refusal :=
  .next (match s.dio.test with
    | none => s
    | some (ch, t0) =>
      let s := advanceTo (t0 + 16666) s
      let pass := if ch.val < 24 then (fins 3).all (fun l => !chains[l]) else !coil
      let gang := gangOf s ch
      let s := forEach gang (fun c => modOut c (fun o => { o with pulse := false, second := !o.second,
                                                                  restoring := pass && !conducts c o, restFrom := t0 })) s
      let s := logSbcTest ch (if pass then 1 else 2)
        (modDio (fun d => { d with test := none, last := if pass then 1#2 else 2#2 }) s)
      if !pass then testFail ch Ev.outTestFail s
      else if t0 + 16666 ≤ s.dio.chipAt then
        forEach gang (fun c s => if codeOk s c then codeStart c s else s) s
      else s)

/-- BRAKE_TEST_ENERGISE_TIMEOUT (R267): an energise request has waited 5 ms; the test is aborted, and the channel
energises at a chip boundary. -/
def execBrakeTestEnergiseTimeout (k : Fin 4) (s : State) : Host.Outcome State Fault Refusal :=
  .next (match s.dio.outs[sbcChan k].waitOn with
    | some t => refreshCode (sbcChan k) (abortBrake k (advanceTo (t + 5 * msT) s))
    | none => s)

/-! ### The boundary -/

/-- Whether an off-pulse keeps a terminal from being read: while it runs, and until the terminal is back, which it is within
296.67 µs of the start of the pulse (R265, R288). -/
def OutCh.masked (o : OutCh) (now : Nat) : Bool := o.pulse || (o.restoring && decide (now ≤ o.restFrom + 29667))

/-- The terminal reading that a boundary latches: an off-pulse does not change it (R288). -/
def OutCh.steadyHigh (o : OutCh) (now : Nat) : Bool := if o.masked now then o.heldHigh else o.termHigh

/-- The same for the low-side pole. -/
def OutCh.steadyLow (o : OutCh) (now : Nat) : Bool := if o.masked now then o.heldLow else o.termLow

/-- Whether a test runs: an off-pulse or a brake test (DIO_TEST_ST.ACTIVE). -/
def dioTesting (s : State) : Bool := s.dio.test.isSome || chans.any (fun ch => s.dio.outs[ch].brkTest)

/-- A channel status word (R263). -/
def statusWord (s : State) (ch : Chan) : Word :=
  let o := s.dio.outs[ch]
  let b1 := if ch.val < 24 then o.vital && o.code else o.steadyLow s.tb
  let b5 := if ch.val < 24 then o.fbLatch else o.coil
  w32 (b2n (o.steadyHigh s.tb) + 2 * b2n b1 + 4 * b2n o.tfail + 8 * b2n o.ovld + 16 * b2n (bit s.tri.dynFault ch.val) +
    32 * b2n b5 + 64 * b2n (o.pulse || o.brkTest) + 128 * b2n s.dio.fieldLow)

/-- The field supply judged at B from a measurement in units of 10 mV (R542). -/
def judgeField (volt : Nat) (s : State) : State :=
  let low := if s.dio.fieldLow then decide (volt < 1950) else decide (volt < 1920)
  let fell := low && !s.dio.fieldLow
  let s := modDio (fun d => { d with fieldVolt := satOf 16 volt, fieldLow := low }) s
  if fell then nvEvent Ev.fieldLow 0#32 0#32 s else s

/-- Step 1 of R145 for the local channels: every chain latches its filtered class, the supply is judged, terminal
readings and status words are latched (R142, R253, R263). -/
def dioSnapshot (volt : Nat) (s : State) : State :=
  if !s.variant.dio then s
  else
    let gated := fclkGated s
    let s := modDio (fun d => { d with ins := vmap (fun x => { x with chains := vmap (fun c =>
      { c with latched := if gated then none else c.cls, latchedBand := c.band && !gated }) x.chains }) d.ins }) s
    let s := judgeField volt s
    modDio (fun d => { d with outs := vgen 28 (fun ch =>
      { d.outs[ch] with termB := d.outs[ch].steadyHigh s.tb, statB := statusWord s ch }) }) s

/-- Step 4 of R145 for the local channels (R252, R264, R272, R273). -/
def dioShadows (s : State) : State :=
  let d := s.dio
  let fresh := d.intervalSh ≠ d.intervalAct
  modDio (fun d => { d with
    ins := vmap inCfgChange d.ins,
    outs := vmap (fun o => { o with silModeAct := o.silModeSh, silMsAct := o.silMsSh }) d.outs,
    intervalAct := d.intervalSh, gridFrom := if fresh then s.scn.bTb else d.gridFrom,
    visits := if fresh then 0 else d.visits }) s

/-- DIO_IN_CFG_n (R250, R271): MODE 3, LIMIT 0 and DEBOUNCE 0 are ignored. -/
def inCfgWrite (v old : Word) : Word :=
  let f := fun (lo w min_ max_ : Nat) => (lo, (pick v lo w min_ max_ (take_ 32 old lo w)).toNat)
  pack [f 0 16 1 65535, f 16 2 0 3, f 20 8 1 255, f 28 1 0 1, f 29 1 0 1, f 30 2 0 2]

/-- The descriptor of an image writes the shadows, and fixes VITAL and GANG until the next START (R261, R271). A value that
a write would not take is not taken (R271 to R273). -/
def dioLoad (io : IoDesc) (s : State) : State :=
  modDio (fun d => { d with
    io := some io,
    intervalSh := if 1 ≤ io.interval ∧ io.interval ≤ 65535 then BitVec.ofNat 16 io.interval else d.intervalSh,
    ins := vgen 48 (fun n => { d.ins[n] with cfgSh := inCfgWrite io.ins[n].cfg d.ins[n].cfgSh }),
    outs := vgen 28 (fun ch =>
      if h : ch.val < 24 then
        let x := io.outs[(⟨ch.val, h⟩ : Fin 24)]
        { d.outs[ch] with vital := x.vital, gang := BitVec.ofNat 2 x.gang.val,
                          silModeSh := BitVec.ofNat 2 x.silMode.val,
                          silMsSh := if 1 ≤ x.silMs ∧ x.silMs ≤ 1000 then BitVec.ofNat 10 x.silMs
                            else d.outs[ch].silMsSh }
      else d.outs[ch]) }) s

/-- B of cycle 1: silence timers and the test grid start (R262, R264). -/
def dioStart (s : State) : State :=
  modDio (fun d => { d with gridFrom := s.scn.bTb, visits := 0,
                            outs := vmap (fun o => { o with silFrom := s.scn.bTb, silFired := false }) d.outs }) s

/-- Whether two I/O descriptors differ in VITAL marking or ganging (R261). -/
def ioDiffers (a b : IoDesc) : Bool :=
  (fins 24).any (fun n => a.outs[n].vital ≠ b.outs[n].vital || a.outs[n].gang ≠ b.outs[n].gang)

end Sys2Proof.Machine
end

