-- ==== Sys2Proof/Machine/Saf.lean ====
section
/-!
DEFINITION. Safety functions (R274 to R299): the vote on local inputs with start-up proof, resets, contactor feedback,
brake tests, output exercise, and the built-in image of the door loop application.
-/
namespace Sys2Proof.Machine

open Sys2Proof

def modSaf (f : Saf → Saf) (s : State) : State := { s with saf := f s.saf }

/-! ### The vote on local inputs (R253, R284, R285) -/

/-- What the three latched classes of an input say. -/
inductive InVote where
  | all (c : InCls)
  | none
  | differ
  deriving DecidableEq, Repr

/-- The comparison of R253. -/
def inVote (x : InCh) : InVote :=
  match x.chains[0].latched, x.chains[1].latched, x.chains[2].latched with
  | some a, some b, some c => if a = b ∧ b = c then .all a else .differ
  | _, _, _ => .none

/-- What an Agree gives an input: value, quality flags, and whether the value is a substitute under R253. -/
structure InRead where
  val : Bool
  flags : Nat
  subst : Bool
  deriving DecidableEq, Repr

/-- R253 alone, with the safe value of the input. -/
def plainRead (safe : Bool) : InVote → InRead
  | .all .closed => ⟨true, 0, false⟩
  | .all .open_ => ⟨false, 0, false⟩
  | .all .brk => ⟨safe, qSubst + qBreak, true⟩
  | _ => ⟨safe, qSubst + qFault, true⟩

/-- The signal of a local input in the image that runs. -/
def inSig (s : State) (n : Fin 48) : Option Sig :=
  (s.olc.active.bind (fun im => im.io.ins[n].signal)).map (fun a => ⟨false, a⟩)

/-- The safe value of a local input (R171): FALSE unless its signal has another. -/
def inSafe (s : State) (n : Fin 48) : Bool := match inSig s n with
  | some g => safeOf s g ≠ 0#32
  | none => false

/-- Whether an input is marked for start-up proof. -/
def proofMarked (s : State) (n : Fin 48) : Bool := match s.saf.desc with
  | some d => d.proof[n]
  | none => false

/-- The read of an input under start-up proof (R284, R285): a BREAK loses what was gained; the proof completes at the
first CLOSED after a clean OPEN. -/
def proofRead (n : Fin 48) (v : InVote) (s : State) : InRead × State :=
  let plain := plainRead (inSafe s n) v
  if !proofMarked s n then (plain, s)
  else
    let pend := s.saf.pend[n]
    let opened := s.saf.opened[n]
    let s := if v = .all .brk && (!pend || opened) then
        nvEvent Ev.proofRestart (w32 n.val) 0#32
          (modSaf (fun x => { x with pend := vset x.pend n true, opened := vset x.opened n false }) s)
      else s
    if !s.saf.pend[n] then (plain, s)
    else match v with
    | .all .closed =>
      if opened then
        (plain, modSaf (fun x => { x with pend := vset x.pend n false, opened := vset x.opened n false }) s)
      else (⟨false, qSubst + qProof, false⟩, s)
    | .all .open_ => (⟨false, qProof, false⟩, modSaf (fun x => { x with opened := vset x.opened n true }) s)
    | _ => ({ plain with flags := plain.flags + qProof }, s)

/-- One local input at an Agree: its events (R253), its value and quality, and the count of its transitions (R269). -/
def inAgree (n : Fin 48) (s : State) : State :=
  let x := s.dio.ins[n]
  let v := inVote x
  let differ := v = .differ
  let band := (fins 3).any (fun l => x.chains[l].latched = some .open_ && x.chains[l].latchedBand)
  let raise := differ && x.differed && !x.differRaised
  let s := if raise then nvEvent Ev.inChainDisagree (w32 n.val) 0#32 s else s
  let s := if band && !x.bandRaised then nvEvent Ev.inOutOfBand (w32 n.val) 0#32 s else s
  let (r, s) := proofRead n v s
  let moved := r.val ≠ x.val
  let s := if moved then logAdd (0x800 + 8 * n.val) 1 s else s
  let s := modIn n (fun x => { x with
    val := r.val, fault := bit (w32 r.flags) 1, brk := bit (w32 r.flags) 2, band := band, differed := differ,
    differRaised := differ && (x.differRaised || raise), bandRaised := band,
    trans := if moved then satInc x.trans else x.trans }) s
  match inSig s n with
  | some g => if r.subst then agreeSubst g .safe (r.flags - qSubst) s
      else agreeWrite g (b2w r.val) (qual 0 1 r.flags) s
  | none => s

/-- The status words as latched at B (R263). -/
def statusAgree (s : State) : State :=
  match s.olc.active with
  | some im => forEach chans (fun ch s => match ioStatus im.io ch with
      | some a => agreeWrite ⟨true, a⟩ s.dio.outs[ch].statB (qual 0 1 0) s
      | none => s) s
  | none => s

/-! ### Resets (R280 to R283) -/

/-- A clean reading has neither FAULT nor WIRE_BREAK (R280). -/
def inClean (s : State) (n : Fin 48) : Bool := !s.dio.ins[n].fault && !s.dio.ins[n].brk

/-- Conditions 5 and 6 of R281; 0 if both hold. -/
def resetBlock (s : State) : Nat :=
  if !s.scn.mode.bounded then 8
  else if s.scn.mode = .safe && chans.any (fun ch =>
    let o := s.dio.outs[ch]
    o.vital && (o.termHigh || o.termLow)) then 7 else 0

/-- A refusal: RESET_REFUSED with its reason held (R281). -/
def resetRefuse (reason : Nat) (a : Word) (s : State) : State :=
  nvEvent Ev.resetRefused a 0#32 (modSaf (fun x => { x with reason := BitVec.ofNat 4 reason }) s)

/-- Feedback latches that an accepted reset clears: the feedback input reads, clean, the dropped state (R283). -/
def resetLatches (s : State) : State :=
  match s.saf.desc with
  | none => s
  | some d => refreshCodes (forEach (fins 24) (fun n s => match d.fb[n] with
      | some m =>
        if inClean s m.input && (s.dio.ins[m.input].val != m.pol) then
          forEach (gangOf s (outChan n)) (fun c => modOut c (fun o => { o with fbLatch := false })) s
        else s
      | none => s) s)

/-- An accepted reset (R283): 1 is an input, 2 the host. -/
def resetAccept (source : Nat) (a : Word) (s : State) : State :=
  let safe := s.scn.mode = .safe
  let s := modSaf (fun x => { x with accepted := satInc x.accepted, source := BitVec.ofNat 2 source, pulseDue := true,
                                     leave := x.leave || safe }) s
  nvEvent Ev.resetAccepted a 0#32 (resetLatches s)

/-- Whether a reset input stands in an attempt. -/
def RstIn.live : RstIn → Bool
  | .on _ => true
  | .done _ _ => true
  | _ => false

/-- TB from one tick to a later one, either way round. -/
def apart (a b : Nat) : Nat := (a - b) + (b - a)

/-- One reset input at an Agree whose B is `b`: the refusal reason if the attempt fails, and where the input then
stands. `other` says that the other input, if there is one, still waits for an OFF reading and does not give it now:
then a pulse starts no attempt (R281 condition 1). -/
def rstStep (b : Nat) (live other clean on : Bool) (x : RstIn) : Nat × RstIn :=
  if !clean then (if live then 4 else 0, .waitOff)
  else match x with
  | .waitOff => (0, if on then .waitOff else .ready)
  | .ready => (0, if on then (if other then .waitOff else .on b) else .ready)
  | .on since => if !on then (0, .done since b) else (if since + 3 * secT < b then 2 else 0, .on since)
  | .done x y => (if on then 3 else 0, .done x y)

/-- Whether the first of two inputs is too far ahead of the second to be met within DISC (R281 condition 4). -/
def rstApart (b disc : Nat) (x y : RstIn) : Bool := match x, y with
  | .on t, .waitOff => decide (disc < b - t)
  | .on t, .ready => decide (disc < b - t)
  | .done t _, .waitOff => decide (disc < b - t)
  | .done t _, .ready => decide (disc < b - t)
  | .done _ u, .on _ => decide (disc < b - u)
  | _, _ => false

/-- Condition 3 of R281 for a finished pulse; 0 if it holds. -/
def rstPulse : RstIn → Nat
  | .done t u => if u - t < 10 * (msT * 10) then 1 else if 3 * secT < u - t then 2 else 0
  | _ => 0

/-- Condition 4 of R281 for two finished pulses. -/
def rstPair (disc : Nat) : RstIn → RstIn → Bool
  | .done t u, .done v w => decide (apart t v ≤ disc ∧ apart u w ≤ disc)
  | _, _ => true

/-- The judging of a finished attempt: the reason, 0 for accepted. -/
def rstJudge (s : State) (disc : Nat) (xs : List RstIn) : Nat :=
  match (xs.map rstPulse).find? (· ≠ 0) with
  | some r => r
  | none => match xs with
    | [x, y] => if rstPair disc x y then resetBlock s else 3
    | _ => resetBlock s

/-- The reset inputs named by the descriptor. -/
def rstInputs (s : State) : List (Fin 48) := match s.saf.desc with
  | some d => (d.resetA.toList ++ d.resetB.toList)
  | none => []

/-- Every reset input put in one place. -/
def rstSet (xs : List RstIn) (s : State) : State :=
  modSaf (fun x => { x with inA := xs.getD 0 .waitOff, inB := xs.getD 1 .waitOff }) s

/-- The reset inputs at an Agree (R281). -/
def rstAgree (s : State) : State :=
  match rstInputs s with
  | [] => s
  | ns =>
    let b := s.scn.bTb
    let old := [s.saf.inA, s.saf.inB].take ns.length
    let live := old.any (·.live)
    let disc := (s.saf.desc.map (·.disc)).getD 0 * (10 * msT)
    let waits := fun (n : Fin 48) (x : RstIn) => x = .waitOff && !(inClean s n && !s.dio.ins[n].val)
    let pairs := ns.zip old
    let steps := pairs.map (fun p =>
      rstStep b live (pairs.any (fun q => q.1 ≠ p.1 && waits q.1 q.2)) (inClean s p.1) s.dio.ins[p.1].val p.2)
    let xs := steps.map (·.2)
    let early := match xs with
      | [x, y] => rstApart b disc x y || rstApart b disc y x
      | _ => false
    let arg := w32 (ns.headD 0).val
    let back := xs.map (fun _ => RstIn.waitOff)
    match (steps.map (·.1)).find? (· ≠ 0) with
    | some r => resetRefuse r arg (rstSet back s)
    | none =>
      if early then resetRefuse 3 arg (rstSet back s)
      else if xs.all (fun x => match x with
        | .done _ _ => true
        | _ => false) then
        match rstJudge s disc xs with
        | 0 => resetAccept 1 arg (rstSet back s)
        | r => resetRefuse r arg (rstSet back s)
      else rstSet xs s

/-- The reset pulse signal (R283): TRUE at the first Agree after acceptance in a cycle in which vital Solve runs. -/
def pulseAgree (s : State) : State :=
  match s.saf.desc.bind (·.pulse) with
  | none => s
  | some a =>
    let on := s.saf.pulseDue && solves s
    let s := agreeWrite ⟨false, a⟩ (b2w on) (qual 0 (match s.olc.active with
      | some im => sourceOf im ⟨false, a⟩
      | none => 0) 0) s
    if on then modSaf (fun x => { x with pulseDue := false }) s else s

/-- RESET_ARM and RESET_COMMIT (R282): the reason of a refusal, 0 for accepted. -/
def hostReset (commit : Bool) (s : State) : Nat × State :=
  let permitted := match s.saf.desc with
    | some d => d.hostReset
    | none => false
  if !permitted then (9, resetRefuse 9 0#32 s)
  else if !commit then (0, modSaf (fun x => { x with armAt := some s.tb }) s)
  else
    let r := match s.saf.armAt with
      | none => 0xA
      | some t => if s.tb - t < secT then 5 else if 3 * secT < s.tb - t then 6 else resetBlock s
    let s := modSaf (fun x => { x with armAt := none }) s
    if r = 0 then (0, modSaf (fun x => { x with hostAccepted := true }) s) else (r, resetRefuse r 0#32 s)

/-! ### Contactor feedback (R286 to R288) -/

/-- Whether a monitor's observed state matches the terminal reading latched at B (R287). -/
def fbMatches (s : State) (n : Fin 24) (m : FbMon) : Bool :=
  inClean s m.input && ((s.dio.ins[m.input].val == m.pol) == s.dio.outs[outChan n].termB)

/-- The monitors at an Agree: since which B the states have disagreed, from the last change of the terminal on. -/
def fbAgree (s : State) : State :=
  match s.saf.desc with
  | none => s
  | some d => forEach (fins 24) (fun n s => match d.fb[n] with
      | none => s
      | some m =>
        let term := s.dio.outs[outChan n].termB
        let from_ := if fbMatches s n m then none
          else if term ≠ s.saf.fbTerm[n] then some s.scn.bTb else some (s.saf.fbFrom[n].getD s.scn.bTb)
        modSaf (fun x => { x with fbTerm := vset x.fbTerm n term, fbFrom := vset x.fbFrom n from_ }) s) s

/-- FEEDBACK_TIMEOUT (R287, R288): at an Agree at or after T_FB the channel, and its gang, is latched. -/
def execFeedbackTimeout (n : Fin 24) (s : State) : Host.Outcome State Fault Refusal :=
  .next (
    match s.saf.desc.bind (fun d => d.fb[n]), s.saf.fbFrom[n] with
    | some m, some t =>
      if !s.scn.agreed || s.dio.outs[outChan n].fbLatch || decide (s.scn.bTb < t + m.tfb * msT) then s
      else
        let ch := outChan n
        let s := forEach (gangOf s ch) (fun c => modOut c (fun o => { o with fbLatch := true })) s
        vitalForChan Ev.fbMismatch ch (latchEndsExercise ch (refreshCodes s))
    | _, _ => s)

/-! ### Brake tests (R289 to R293) -/

/-- The configuration of a brake channel's test. -/
def brkCfg (s : State) (k : Fin 4) : Option BrkCfg := s.saf.desc.bind (fun d => d.brk[k])

/-- A brake test starts at the first boundary in RUN at which the conditions of R290 hold. Forces do not reach SAF
(R274). -/
def brkStart (k : Fin 4) (s : State) : State :=
  match brkCfg s k with
  | none => s
  | some c =>
    let o := s.dio.outs[sbcChan k]
    let free := (fins 4).all (fun j => s.saf.brk[j].phase ≠ 1#2 && !s.saf.brk[j].starting)
    if s.variant.dio && s.scn.mode = .run && s.saf.brk[k].due && s.saf.brk[k].phase = 0#2 && free && !o.want &&
        !o.termHigh && !o.termLow && majArea s none ⟨false, c.permit⟩ ≠ 0#32 then
      modBrk k (fun b => { b with starting := true, startB := s.scn.bTb }) s
    else s

/-- The boundary's starts, one test at a time. -/
def brkStarts (s : State) : State := forEach (fins 4) brkStart s

/-- The brake test word (R289). -/
def brkWord (c : BrkCfg) (b : Brk) : Word :=
  w32 ((if b.phase = 1#2 then c.torque * 0x1000000 else 0) + b.last.toNat * 16 + b.phase.toNat)

/-- Agree writes the brake test word. -/
def brkPut (k : Fin 4) (s : State) : State :=
  match brkCfg s k with
  | some c => agreeWrite ⟨true, c.testWord⟩ (brkWord c s.saf.brk[k]) (qual 0 1 0) s
  | none => s

/-- The position word as SAF reads it (R274, R291): the value, none if its quality forbids it. -/
def brkPos (s : State) (c : BrkCfg) : Option Int :=
  let g : Sig := ⟨true, c.position⟩
  let q := qFlags (pimQuality s 0 none g)
  if q &&& (qSubst + qFault + qStopped) ≠ 0 then none else some (areaVal s 0 none g).toInt

/-- FAIL (R291, R292): the channel is latched TEST_FAIL. -/
def brkFail (k : Fin 4) (s : State) : State :=
  let s := modOut (sbcChan k) (fun o => { o with brkTest := false, waitOn := none }) s
  let s := modBrk k (fun b => { b with phase := 2#2, last := 2#2, due := false, ending := false }) s
  testFail (sbcChan k) Ev.brkTestFail (logAdd (0xA40 + 32 * k.val + 16) 1 (modDio (fun d => { d with last := 2#2 }) s))

/-- PASS (R291, R292). -/
def brkPass (k : Fin 4) (s : State) : State :=
  let s := modOut (sbcChan k) (fun o => { o with brkTest := false, waitOn := none }) s
  let s := modBrk k (fun b => { b with phase := 2#2, last := 1#2, due := false, passAt := s.tb, graceAt := none,
                                       ending := false }) s
  nvEvent Ev.brkTestPass (chanArg (sbcChan k)) 0#32
    (logAdd (0xA40 + 32 * k.val + 8) 1 (modDio (fun d => { d with last := 1#2 }) s))

/-- ABORTED at an Agree: END is written by this Agree. -/
def brkAbortNow (k : Fin 4) (s : State) : State := modBrk k (fun b => { b with ending := false }) (abortBrake k s)

/-- One brake test at an Agree (R291). A test that starts outside RUN does not begin. -/
def brkStep (k : Fin 4) (c : BrkCfg) (s : State) : State :=
  let b := s.saf.brk[k]
  if b.starting then
    let s := modBrk k (fun b => { b with starting := false }) s
    if s.scn.mode ≠ .run then s
    else
      let env := codeEnv s (sbcChan k)
      let s := modOut (sbcChan k) (fun o => { o with brkTest := true, envOk := env }) s
      let p := (areaVal s 0 none ⟨true, c.position⟩).toInt
      stopCode (sbcChan k) (modBrk k (fun b => { b with phase := 1#2, ref := p }) s)
  else if b.phase = 2#2 then
    if b.ending then modBrk k (fun b => { b with ending := false }) s else modBrk k (fun b => { b with phase := 0#2 }) s
  else if b.phase = 1#2 && decide (s.scn.bTb < b.startB + c.tTest * (100 * msT)) then
    match brkPos s c with
    | none => brkAbortNow k s
    | some p => if (c.thresh : Int) < p - b.ref ∨ (c.thresh : Int) < b.ref - p then brkFail k s else s
  else s

/-- The brake tests at an Agree. -/
def brkAgree (s : State) : State :=
  forEach (fins 4) (fun k s => match brkCfg s k with
    | some c => brkPut k (brkStep k c s)
    | none => s) s

/-- BRAKE_TEST_TIME_END (R291): the first Agree at or after T_TEST: PASS if the acknowledge signal is permissive. -/
def execBrakeTestTimeEnd (k : Fin 4) (s : State) : Host.Outcome State Fault Refusal :=
  .next (match brkCfg s k with
    | none => s
    | some c =>
      if !s.scn.agreed || s.saf.brk[k].phase ≠ 1#2 || decide (s.scn.bTb < s.saf.brk[k].startB + c.tTest * (100 * msT))
      then s
      else
        let g : Sig := ⟨false, c.ack⟩
        let q := pimQuality s 0 none g
        let ageMax := fld s.svy.cfgAct 24 8
        let ack := areaVal s 0 none g ≠ 0#32 && qFlags q &&& (qSubst + qFault + qBreak + qStopped + qProof) = 0 &&
          (ageMax = 0 || decide (qAge q ≤ ageMax))
        brkPut k (if ack then brkPass k s else brkAbortNow k s))

/-- BRAKE_TEST_DUE (R290): the time since the last pass reaches the interval. -/
def execBrakeTestDue (k : Fin 4) (s : State) : Host.Outcome State Fault Refusal :=
  .next (match brkCfg s k with
    | some c =>
      if !s.variant.dio || s.saf.brk[k].due then s
      else modBrk k (fun b => { b with due := true }) (advanceTo (s.saf.brk[k].passAt + c.interval * hourT) s)
    | none => s)

/-- BRAKE_TEST_OVERDUE (R293): the interval and the grace time have passed, or a new grace time after a clearing. -/
def execBrakeTestOverdue (k : Fin 4) (s : State) : Host.Outcome State Fault Refusal :=
  .next (match brkCfg s k with
    | some c =>
      let b := s.saf.brk[k]
      if !s.variant.dio || b.overdue then s
      else
        let at_ := match b.graceAt with
          | some t => t + c.grace * hourT
          | none => b.passAt + (c.interval + c.grace) * hourT
        testFail (sbcChan k) Ev.brkTestOverdue (modBrk k (fun b => { b with overdue := true }) (advanceTo at_ s))
    | none => s)

/-! ### Output exercise (R294, R295) -/

/-- The exercise at a boundary: it ends, or starts, and SAF hands the channel ON with a credit to the end of the next
cycle. -/
def exerTurn (s : State) : State :=
  match s.saf.exer with
  | none => s
  | some (ch, len) =>
    if s.scn.mode ≠ .stop || !s.scn.commEn then endExercise s
    else
      let s := if s.saf.exerOn then s else
        nvEvent Ev.exerStart (chanArg ch) 0#32
          (modSaf (fun x => { x with exerOn := true, exerEnd := s.scn.bTb + len }) s)
      refreshCodes (forEach (gangOf s ch) (fun c => modOut c (fun o =>
        { o with exer := true, want := true, credit := some (s.scn.cycle + 1) })) s)

/-- EXERCISE_EXPIRY (R295). -/
def execExerciseExpiry (s : State) : Host.Outcome State Fault Refusal :=
  .next (if s.saf.exerOn then endExercise (advanceTo s.saf.exerEnd s) else s)

/-! ### Agree -/

/-- PROOF_COMPLETE, once after START (R285). -/
def proofComplete (s : State) : State :=
  let marked := (fins 48).filter (proofMarked s)
  if s.saf.proofDone || marked.isEmpty || marked.any (fun n => s.saf.pend[n]) then s
  else nvEvent Ev.proofComplete 0#32 0#32 (modSaf (fun x => { x with proofDone := true }) s)

/-- What Agree does for the local channels and SAF. Without local channels only the host's reset remains (R303). -/
def safAgree (s : State) : State :=
  let s := if s.variant.dio then statusAgree (forEach (fins 48) inAgree s) else s
  let s := pulseAgree s
  let s := if s.saf.hostAccepted then resetAccept 2 0#32 (modSaf (fun x => { x with hostAccepted := false }) s) else s
  if s.variant.dio then brkAgree (fbAgree (proofComplete (rstAgree s))) else s

/-! ### The descriptor in force -/

/-- A safety descriptor as SAF holds it: no field is wider than its place in the registers of R303 (R11). -/
def SafetyDesc.masked (d : SafetyDesc) : SafetyDesc :=
  { d with
    disc := d.disc % 2 ^ 8
    fb := vmap (fun m => m.map (fun x => { x with tfb := x.tfb % 2 ^ 9 })) d.fb
    brk := vmap (fun b => b.map (fun x =>
      { x with interval := x.interval % 2 ^ 8, grace := x.grace % 2 ^ 8, tTest := x.tTest % 2 ^ 8,
               torque := x.torque % 2 ^ 7, position := x.position % 2 ^ 19, thresh := x.thresh % 2 ^ 12,
               permit := x.permit % 2 ^ 23, ack := x.ack % 2 ^ 23 })) d.brk }

/-- SAF takes a safety descriptor at START (R275, R284). -/
def safLoad (d : SafetyDesc) (s : State) : State :=
  modSaf (fun x => { x with desc := some d.masked, pend := d.proof, opened := Vector.replicate 48 false }) s

/-! ### The door loop application (R296 to R299) -/

/-- The DIO_IN_CFG word of a MONITORED input with a debounce time in ms. -/
def dlaIn_cfg (fastOff : Bool) (ms : Nat) : Word := w32 (0x80A20000 + (if fastOff then 0x10000000 else 0) + 1000 * ms)

/-- The configuration of IN_n (R297). -/
def dlaInDesc (n : Nat) : InDesc :=
  { cfg := if n < 40 then dlaIn_cfg true 20 else if n < 42 then dlaIn_cfg false 20 else if n < 44 then dlaIn_cfg false 10
      else 0x80A20BB8#32, signal := some n }

/-- The output signal of OUT_0, OUT_1 and OUT_4 (log entry 15). -/
def dlaOut (n : Nat) : Option Sig := if n = 0 ∨ n = 1 ∨ n = 4 then some ⟨false, 0x100000 + n⟩ else none

/-- The configuration of OUT_n (R297). Only OUT_0 and OUT_1 have a status word that the application reads. -/
def dlaOutDesc (n : Nat) : OutDesc :=
  { vital := n ≠ 4, gang := 0, silMode := if n = 4 then 1 else 0, silMs := 100, signal := dlaOut n, status := some n }

/-- The safety descriptor of the door loop application (R297). -/
def dlaSafety : SafetyDesc :=
  { hostReset := false, resetA := some 40, resetB := some 41, disc := 50, pulse := some 48,
    proof := vgen 48 (fun n => decide (n.val < 40)),
    fb := vgen 24 (fun n => if n = 0 then some ⟨42, false, 100⟩ else if n = 1 then some ⟨43, false, 100⟩ else none),
    brk := Vector.replicate 4 none }

end Sys2Proof.Machine
end

