-- ==== Sys2Proof/Machine/Sha.lean ====
section
/-!
DEFINITION. SHA-256 and HMAC-SHA-256, which R387 names and does not spell out: written from the public standard
(PRESUMED, log entry 8).
-/
namespace Sys2Proof.Machine

open Sys2Proof

/-- The largest number below `2 ^ bits` above `acc` whose `e`-th power does not pass `x`, found bit by bit. -/
def rootBits (e x : Nat) : Nat → Nat → Nat
  | 0, acc => acc
  | k + 1, acc => rootBits e x k (if (acc + 2 ^ k) ^ e ≤ x then acc + 2 ^ k else acc)

/-- The first 32 bits of the fractional part of the `e`-th root of `p`: where the standard takes its constants from. -/
def rootWord (e p : Nat) : Word := BitVec.ofNat 32 (rootBits e (p * 2 ^ (32 * e)) 37 0)

/-- The first 64 primes: below 312, what none of the first seven primes divides, after those seven. -/
def shaPrimes : List Nat :=
  let small := [2, 3, 5, 7, 11, 13, 17]
  small ++ (List.range' 19 293).filter (fun n => small.all (fun d => n % d != 0))

/-- The hash so far, as its two chains with the newest word first: A (a, b, c, d) and E (e, f, g, h). -/
structure Sha where
  chainA : List Word
  chainE : List Word
  deriving DecidableEq, Repr

/-- The initial hash value: the square roots of the first eight primes. -/
def shaInit : Sha :=
  let ws := (shaPrimes.take 8).map (rootWord 2)
  { chainA := ws.take 4, chainE := ws.drop 4 }

/-- The exclusive or of a word turned right by each of the amounts. -/
def turns (w : Word) (amounts : List Nat) : Word := amounts.foldl (fun acc n => acc ^^^ w.rotateRight n) 0#32

/-- The word that enters the 16-word window `ws` (oldest first) at its end. -/
def shaNextWord (ws : List Word) : Word :=
  let word := fun i => ws.getD i 0#32
  word 0 + word 9 + (turns (word 1) [7, 18] ^^^ word 1 >>> 3) + (turns (word 14) [17, 19] ^^^ word 14 >>> 10)

/-- One round on both chains: `kw` is the sum of the round's constant and its message word. -/
def shaRound (x : Sha) (kw : Word) : Sha :=
  let a := fun i => x.chainA.getD i 0#32
  let e := fun i => x.chainE.getD i 0#32
  let pick := e 2 ^^^ (e 0 &&& (e 1 ^^^ e 2))
  let most := (a 0 &&& a 1) ||| (a 2 &&& (a 0 ||| a 1))
  let t := e 3 + pick + kw + turns (e 0) [6, 11, 25]
  { chainA := (most + t + turns (a 0) [2, 13, 22]) :: x.chainA.take 3, chainE := (a 3 + t) :: x.chainE.take 3 }

/-- The rounds of one block, one for each prime left, the window of message words moving on by one each time. -/
def shaRounds : List Nat → List Word → Sha → Sha
  | [], _, x => x
  | p :: ps, ws, x => shaRounds ps (ws.tail ++ [shaNextWord ws]) (shaRound x (rootWord 3 p + ws.headD 0#32))

/-- One block of 16 message words, oldest first. -/
def shaBlock (x : Sha) (ws : List Word) : Sha :=
  let y := shaRounds shaPrimes ws x
  { chainA := List.zipWith (· + ·) x.chainA y.chainA, chainE := List.zipWith (· + ·) x.chainE y.chainE }

/-- The big-endian words of a byte sequence. -/
def shaWords : List Byte → List Word
  | a :: b :: c :: d :: r => (a ++ b ++ c ++ d) :: shaWords r
  | _ => []

/-- The padded message. -/
def shaPad (m : List Byte) : List Byte :=
  m ++ [0x80#8] ++ List.replicate ((119 - m.length % 64) % 64) 0#8 ++ beBytes 8 (8 * m.length)

/-- The blocks of a word sequence, `fuel` at most, folded into the hash. -/
def shaFold : Nat → Sha → List Word → Sha
  | 0, x, _ => x
  | n + 1, x, ws => if ws.isEmpty then x else shaFold n (shaBlock x (ws.take 16)) (ws.drop 16)

/-- SHA-256 of a byte sequence. -/
def sha256 (m : List Byte) : List Byte :=
  let ws := shaWords (shaPad m)
  let x := shaFold ws.length shaInit ws
  (x.chainA ++ x.chainE).flatMap (fun w => beBytes 4 w.toNat)

/-- HMAC-SHA-256 under a key of at most 64 bytes. -/
def hmac (key m : List Byte) : List Byte :=
  let k := key ++ List.replicate (64 - key.length) 0#8
  sha256 (k.map (· ^^^ 0x5C#8) ++ sha256 (k.map (· ^^^ 0x36#8) ++ m))

end Sys2Proof.Machine
end

