-- ==== Sys2Proof/Machine/Host.lean ====
section
/-!
DEFINITION. The host interface (R374 to R400): the link, ring set-up and doorbells, the fetching and judging of
descriptors (R380, R386, R391), tags and key slots (R387 to R390), and the commands of rings 0, 1, 3, 5, 6 and 7.
-/
namespace Sys2Proof.Machine

open Sys2Proof

/-! ### The link (R377) -/

/-- A ring stops at once: what is outstanding or waits is discarded (R377, R379). -/
def ringOff (x : Ring) : Ring := { x with en := false, st := .disabled, cq := [], waitq := [], outs := [] }

/-- The host link is lost (R174, R377): rings are disabled, HST_LINK_LOST, and the host request area is due to take
substitute values. -/
def linkLoss (s : State) : State :=
  if !s.hst.link then s
  else
    let s := modHst (fun h => { h with link := false, rings := vmap ringOff h.rings }) s
    nvEvent Ev.hstLinkLost 0#32 0#32 { s with pim := { s.pim with linkLost := true } }

/-- What the host has written in the configuration space when it lets the function work: free values, for no row of the
table carries a configuration request (log entry 110). The sizes are those of R374. -/
def pcieFree (w aer : Word) : Pcie :=
  { msixEn := bit w 0, funcMask := bit w 1, d3hot := false, maxPayload := if bit w 2 then 256 else 128,
    maxRead := 128 * 2 ^ (fld w 3 8 % 3), aerUncorr := aer, aerCorr := w32 (fld w 16 16) }

/-- Pending vectors that nothing masks any more are signalled (R383). -/
def msixFlush (s : State) : State :=
  forEach (fins 16) (fun v s =>
    if bit s.hst.pba v.val && s.hst.pcie.msixEn && !s.hst.pcie.funcMask && !msixMasked s v then
      signalVec v (modHst (fun h => { h with pba := bitSet h.pba v.val false }) s)
    else s) s

/-- LINK_UP (R377): the link is up and Bus Master Enable is set. -/
def execLinkUp (s : State) : Host.Outcome State Fault Refusal :=
  .next (
    let (w, s) := draw s
    let (aer, s) := draw s
    msixFlush (modHst (fun h => { h with link := true, pcie := pcieFree w aer }) s))

/-- LINK_DOWN (R377). -/
def execLinkDown (s : State) : Host.Outcome State Fault Refusal := .next (linkLoss s)

/-- BUS_MASTER_DISABLE (R377). -/
def execBusMasterDisable (s : State) : Host.Outcome State Fault Refusal := .next (linkLoss s)

/-- FUNCTION_LEVEL_RESET (R377): every HST register but the KEY block and HST_NONCE returns to its reset value, SD and KEYS
of HST_STAT among them (log entry 119), and so does the configuration space (R374). -/
def execFunctionLevelReset (s : State) : Host.Outcome State Fault Refusal :=
  .next (modHst (fun h =>
    { Hst.init with stopped := h.stopped, scanOpen := h.scanOpen, nonce := h.nonce, seqs := h.seqs, slots := h.slots,
                    keyStat := h.keyStat, keyStores := h.keyStores, statMem := h.statMem, statCtl := h.statCtl,
                    msgs := h.msgs, sent := h.sent,
                    rings := vmap (fun x => { Ring.init with fetched := x.fetched }) h.rings }) (linkLoss s))

/-- PERST (R522): the endpoint is reset, its configuration space and its MSI-X table and pending bits with it, and nothing else;
the rings lose the link (R377). -/
def execPerst (s : State) : Host.Outcome State Fault Refusal :=
  .next (modHst (fun h => { h with pcie := Hst.init.pcie, msix := Hst.init.msix, pba := Hst.init.pba,
                                   rings := vmap ringOff h.rings }) (linkLoss s))

/-! ### Ring set-up and doorbells (R378 to R381) -/

/-- The fields of HST_RING_CFG_r. -/
def ringCfg (x : Ring) : Word :=
  w32 (x.size.toNat + 0x10000 * x.nvpart.toNat + 0x1000000 * x.vec.toNat + 0x80000000 * b2n x.en)

/-- Whether a ring serves non-vital partitions. -/
def nvRing (r : Fin 8) : Bool := decide (6 ≤ r.val)

/-- The fields of a write to HST_RING_CFG_r that take effect while EN is 0: SIZE 0 or above 12 is ignored, NVPART is
reserved except on rings 6 and 7 (R400). -/
def ringFields (r : Fin 8) (v : Word) (x : Ring) : Ring :=
  let size := fld v 0 4
  { x with size := if 1 ≤ size ∧ size ≤ 12 then BitVec.ofNat 4 size else x.size,
           nvpart := if nvRing r then BitVec.ofNat 3 (fld v 16 3) else x.nvpart,
           vec := BitVec.ofNat 4 (fld v 24 4) }

/-- The ring starts (R379). -/
def ringStart (x : Ring) : Ring :=
  { x with en := true, st := .running, phase := true, sqHead := 0, sqTail := 0, cqTail := 0, cqHead := 0, lost := 0#4,
           lostFlag := false, cq := [], waitq := [], outs := [] }

/-- Whether both queue bases are aligned to 4 KiB. -/
def ringAligned (x : Ring) : Bool := fld x.sqBase 0 12 = 0 && fld x.cqBase 0 12 = 0

/-- A write to HST_RING_CFG_r at register offset `ofs` (R379). -/
def ringCfgWrite (ofs : Nat) (r : Fin 8) (v : Word) (s : State) : State :=
  let x := s.hst.rings[r]
  if x.en then
    let s := if ringFields r v x = x then s else nvEvent Ev.cfgWhileRunning (w32 ofs) 0#32 s
    if bit v 31 then s else modRing r ringOff s
  else
    let s := modRing r (ringFields r v) s
    if !bit v 31 then s
    else if ringAligned s.hst.rings[r] then modRing r ringStart s
    else nvEvent Ev.hstRingError (w32 r.val) 0#32 s

/-- The register offset of HST_RING_CFG_r. -/
def ringCfgOfs (r : Fin 8) : Nat := 0x6050 + 0x20 * r.val

/-- RING_ENABLE (R379): a write with EN 1. While HST is under test the write is ignored (R490). -/
def execRingEnable (r : Fin 8) (v : Word) (s : State) : Host.Outcome State Fault Refusal :=
  .next (if bit v 31 && !hstIdle s then ringCfgWrite (ringCfgOfs r) r v s else s)

/-- RING_DISABLE (R379): a write with EN 0. -/
def execRingDisable (r : Fin 8) (v : Word) (s : State) : Host.Outcome State Fault Refusal :=
  .next (if bit v 31 || hstIdle s then s else ringCfgWrite (ringCfgOfs r) r v s)

/-- A doorbell value out of range (R380, R381): STATE 0x2 and HST_RING_ERROR. -/
def ringError (r : Fin 8) (s : State) : State :=
  nvEvent Ev.hstRingError (w32 r.val) 0#32 (modRing r (fun x => { x with st := .error }) s)

/-- SQ_TAIL_DOORBELL (R380): the descriptors up to the tail are to be fetched, or the ring is in error. Ring 2 has no SQ,
whose size is ignored (R378). -/
def execSqTailDoorbell (r : Fin 8) (v : Word) (s : State) : Host.Outcome State Fault Refusal :=
  .next (
    if hstIdle s then s else
    let s := modRing r (fun x => { x with sqDb := v }) s
    let x := s.hst.rings[r]
    if x.st ≠ .running || r = 2 then s
    else if ringSize x ≤ v.toNat then ringError r s
    else modRing r (fun x => { x with sqTail := v.toNat }) s)

/-- CQ_HEAD_DOORBELL (R381): entries are freed, in a ring in error too: R380 ends its fetching alone. -/
def execCqHeadDoorbell (r : Fin 8) (v : Word) (s : State) : Host.Outcome State Fault Refusal :=
  .next (
    if hstIdle s then s else
    let s := modRing r (fun x => { x with cqDb := v }) s
    let x := s.hst.rings[r]
    if !x.en then s
    else if ringSize x ≤ v.toNat then ringError r s
    else
      let n := (v.toNat + ringSize x - x.cqHead) % ringSize x
      modRing r (fun x => { x with cqHead := v.toNat, cq := x.cq.drop n }) s)

/-- COMPLETION_DELIVERY (R382): a waiting completion is written once there is room. -/
def execCompletionDelivery (r : Fin 8) (s : State) : Host.Outcome State Fault Refusal :=
  .next (
    let x := s.hst.rings[r]
    match x.waitq with
    | e :: rest =>
      if x.en && !hstIdle s && !cqFull x then cqWrite r e (modRing r (fun y => { y with waitq := rest }) s) else s
    | [] => s)

/-! ### Fetching and judging (R380, R386, R391) -/

/-- The opcodes of a ring (R378). -/
def ringOpcode (r : Fin 8) (op : Nat) : Bool := match r.val with
  | 0 => decide (1 ≤ op ∧ op ≤ 8)
  | 1 => op = 0x11
  | 3 => op = 0x31
  | 4 => decide (0x41 ≤ op ∧ op ≤ 0x48)
  | 5 => decide (0x51 ≤ op ∧ op ≤ 0x57)
  | 6 => op = 0x61
  | 7 => op = 0x61
  | _ => false

/-- Whether the ring fetches its next descriptor now: it runs, its head is not at the tail, the quota has room, and no
completion waits for room (R380, R382, R386, R398). -/
def ringFetches (s : State) (r : Fin 8) : Bool :=
  let x := s.hst.rings[r]
  s.hst.link && !hstIdle s && x.st = .running && x.sqHead ≠ x.sqTail && decide (x.outs.length < x.quotaAct.toNat) &&
    x.waitq.isEmpty && !cqFull x

/-- The descriptor's bytes 0 to 23 (R384). -/
def Descriptor.head (d : Descriptor) : List Byte :=
  [d.opcode, d.flags] ++ leBytes 2 d.cid.toNat ++ leBytes 4 d.seq.toNat ++ leBytes 8 d.arg0.toNat ++
    leBytes 8 d.arg1.toNat

def Descriptor.tagged (d : Descriptor) : Bool := bit d.flags 0
def Descriptor.slot (d : Descriptor) : Fin 8 := ⟨fld d.flags 1 3, Nat.mod_lt _ (by decide)⟩

/-- The tag of a descriptor under a key (R387). -/
def tagOf (key : List Byte) (r : Fin 8) (nonce : Dword) (d : Descriptor) : Dword :=
  dwordOf ((hmac key (d.head ++ leBytes 1 r.val ++ leBytes 8 nonce.toNat)).take 8)

/-- What a command does once steps 1 to 8 of R391 are passed: it is refused or done, it stays outstanding, or it
waits for its host memory access. -/
inductive HostOut where
  | done (status detail : Nat) (d0 d1 : Dword) (s : State)
  | held (s : State)
  | dma (s : State)

/-- A command of R392: its opcode, whether a descriptor of this opcode is this command, whether it needs a tag,
whether its arguments are in range (step 7), whether its block is present (step 8), and its own conditions and effect
(step 10). -/
structure HostCmd where
  op : Nat
  mine : Descriptor → Bool
  needsTag : State → Descriptor → Bool
  args : State → Descriptor → Bool
  present : State → Descriptor → Bool
  act : CmdRef → Descriptor → State → HostOut

/-- The highest SEQ of the tagged commands of a ring and slot whose host memory access still runs: a descriptor that repeats
one is not fresh, though SEQ advances only as the access ends (R388, log entry 67). -/
def seqPending (s : State) (r : Fin 8) (slot : Fin 8) : Nat :=
  (s.hst.rings[r].outs.filter (fun c => c.dma && c.desc.tagged && decide (c.desc.slot = slot))).foldl
    (fun n c => max n c.desc.seq.toNat) 0

/-- Steps 4 to 6 of R391 for a tagged descriptor: the status on failure, 0 if they pass. -/
def tagCheck (s : State) (r : Fin 8) (d : Descriptor) : Nat :=
  if !d.tagged then 0
  else match s.hst.slots[d.slot] with
  | none => St.keyEmpty
  | some key =>
    if tagOf key r s.hst.nonce d ≠ d.tag then St.tagFail
    else if d.seq.toNat ≤ max s.hst.seqs[r][d.slot].toNat (seqPending s r d.slot) then St.seqStale else 0

/-- A tagged descriptor is accepted: its SEQ is the last one of its ring and slot (R388). -/
def seqTake (r : Fin 8) (d : Descriptor) (s : State) : State :=
  if d.tagged then
    modHst (fun h =>
      { h with seqs := vupd h.seqs r (fun v => vset v d.slot (if v[d.slot].toNat < d.seq.toNat then d.seq else v[d.slot])),
               rings := vupd h.rings r (fun x => { x with seqLast := d.seq }) }) s
  else s

/-- Steps 1 to 8 of R391: the status on failure, 0 if they pass. -/
def hostChecks (c : HostCmd) (s : State) (r : Fin 8) (d : Descriptor) : Nat :=
  if s.scn.mode = .shutdown && d.opcode ≠ 1#8 then St.shutdown
  else if !ringOpcode r d.opcode.toNat then St.badOpcode
  else if fld d.flags 4 4 ≠ 0 || (c.needsTag s d && !d.tagged) then St.notTagged
  else match tagCheck s r d with
    | 0 => if !c.args s d then St.badParam else if !c.present s d then St.absent else 0
    | n => n

/-- The next descriptor is taken from the queue: it is outstanding under its fetch number (R386). -/
def ringTake (r : Fin 8) (d : Descriptor) (s : State) : State :=
  modRing r (fun x => { x with sqHead := (x.sqHead + 1) % ringSize x, fetched := x.fetched + 1,
                               outs := x.outs ++ [{ no := x.fetched, idx := x.sqHead, desc := d, dma := false }] }) s

/-- The outcome of step 10 (R388, R391): SEQ advances on an accepted descriptor. -/
def hostSettle (r : Fin 8) (d : Descriptor) (ref : CmdRef) : HostOut → State
  | .done st detail d0 d1 s => completeWith ref st detail d0 d1 (if st = St.ok then seqTake r d s else s)
  | .held s => seqTake r d s
  | .dma s => modRing r (fun x => { x with outs := x.outs.map (fun y => if y.no = ref.no then { y with dma := true } else y) }) s

/-- A descriptor is fetched and judged (R391). A row of the table stands for the descriptors of its own opcode, and
for those whose opcode is not on the ring. -/
def hostRow (c : HostCmd) (r : Fin 8) (d : Descriptor) (s : State) : State :=
  if !ringFetches s r || (ringOpcode r d.opcode.toNat && !(d.opcode.toNat = c.op && c.mine d)) then s
  else
    let x := s.hst.rings[r]
    let ref : CmdRef := ⟨r, x.fetched⟩
    let s := ringTake r d s
    match hostChecks c s r d with
    | 0 => hostSettle r d ref (c.act ref d s)
    | st =>
      let s := if st = St.tagFail || st = St.seqStale then
          nvEvent Ev.hstTagFail (w32 r.val) (w32 x.sqHead) (modHst (fun h => { h with tagFail := satInc h.tagFail }) s)
        else s
      if st = St.shutdown && decide (r.val = 4) then
        let why := shutDetail d.opcode.toNat
        complete ref st why { s with olc := { s.olc with result := BitVec.ofNat 8 why } }
      else complete ref st 0 s

/-- A refusal with its DETAIL. -/
def refuse (detail : Nat) (s : State) : HostOut := .done St.refused detail 0#64 0#64 s

/-- Done at once. -/
def accept (s : State) : HostOut := .done St.ok 0 0#64 0#64 s

/-- A command that needs a tag, takes every descriptor of its opcode and stands in a block that every variant has. -/
def HostCmd.tagged (op : Nat) (args : State → Descriptor → Bool) (act : CmdRef → Descriptor → State → HostOut) :
    HostCmd :=
  { op := op, mine := fun _ => true, needsTag := fun _ _ => true, args := args, present := fun _ _ => true, act := act }

/-- Both arguments are zero. -/
def zeroArgs (_s : State) (d : Descriptor) : Bool := d.arg0 = 0#64 && d.arg1 = 0#64

/-! ### Ring 0 (R392) -/

/-- IDENTIFY (R392). -/
def execIdentify (r : Fin 8) (d : Descriptor) (s : State) : Host.Outcome State Fault Refusal :=
  .next (hostRow
    { op := 1, mine := fun _ => true, needsTag := fun _ _ => false, args := zeroArgs, present := fun _ _ => true,
      act := fun _ _ s => .done St.ok 0 (BitVec.ofNat 64 (s.variant.caps.toNat + 2 ^ 32 * Config.firmware.toNat))
        s.hst.nonce s } r d s)

/-- The conditions of a mode request (R147, R148): the DETAIL that refuses it, 0 if they hold. A request for the
current mode changes nothing. -/
def modeDetail (s : State) (m : Mode) : Nat :=
  if m = s.scn.mode then 0
  else match s.scn.mode, m with
  | .stop, .run => if s.scn.imageValid then 0 else Dt.image
  | .hold, .run => if s.scn.commEn then 0 else Dt.key
  | .stop, .hold => if !s.scn.commEn then Dt.key else if s.scn.imageValid then 0 else Dt.image
  | .run, .hold => if !s.scn.commEn then Dt.key else if s.scn.imageValid then 0 else Dt.image
  | .run, .stop => 0
  | .hold, .stop => 0
  | .stop, .shutdown => 0
  | .safe, .shutdown => 0
  | _, _ => Dt.mode

/-- A refused mode or step request raises MODE_REFUSED (R148, R393). -/
def modeRefuse (detail : Nat) (s : State) : HostOut := refuse detail (nvEvent Ev.modeRefused 0#32 0#32 s)

/-- What waits for the next boundary. -/
def addReq (ref : CmdRef) (q : Req) (s : State) : State := { s with scn := { s.scn with reqs := s.scn.reqs ++ [(ref, q)] } }

/-- The mode that MODE_REQ names, none for a target outside its range. -/
def modeTarget (d : Descriptor) : Option Mode :=
  if d.arg0 = 2#64 then some .stop else if d.arg0 = 3#64 then some .run else if d.arg0 = 4#64 then some .hold
  else if d.arg0 = 6#64 then some .shutdown else none

/-- MODE_REQ for one mode (R392). A target outside the range fails step 7 whichever row carries it. -/
def modeCmd (m : Mode) : HostCmd :=
  { op := 2, mine := fun d => match modeTarget d with
      | some x => x = m
      | none => true,
    needsTag := fun _ _ => true, args := fun _ d => (modeTarget d).isSome && d.arg1 = 0#64, present := fun _ _ => true,
    act := fun ref _ s => match modeDetail s m with
      | 0 => .held (addReq ref (.mode m) s)
      | n => modeRefuse n s }

/-- RUN_REQUEST (R147). -/
def execRunRequest (r : Fin 8) (d : Descriptor) (s : State) : Host.Outcome State Fault Refusal :=
  .next (hostRow (modeCmd .run) r d s)

/-- HOLD_REQUEST (R147). -/
def execHoldRequest (r : Fin 8) (d : Descriptor) (s : State) : Host.Outcome State Fault Refusal :=
  .next (hostRow (modeCmd .hold) r d s)

/-- STOP_REQUEST (R147). -/
def execStopRequest (r : Fin 8) (d : Descriptor) (s : State) : Host.Outcome State Fault Refusal :=
  .next (hostRow (modeCmd .stop) r d s)

/-- SHUTDOWN_REQUEST (R147). -/
def execShutdownRequest (r : Fin 8) (d : Descriptor) (s : State) : Host.Outcome State Fault Refusal :=
  .next (hostRow (modeCmd .shutdown) r d s)

/-- The conditions of a step request (R153). -/
def stepDetail (s : State) : Nat :=
  if s.scn.mode ≠ .hold then Dt.mode else if !s.scn.commEn then Dt.key else 0

/-- STEP (R153): accepted in HOLD with COMM_EN active while no step is pending. -/
def execStep (r : Fin 8) (d : Descriptor) (s : State) : Host.Outcome State Fault Refusal :=
  .next (hostRow (HostCmd.tagged 3 zeroArgs (fun ref _ s =>
    match stepDetail s with
    | 0 => if s.scn.stepPending then modeRefuse Dt.busy s
        else .held (addReq ref .step { s with scn := { s.scn with stepPending := true } })
    | n => modeRefuse n s)) r d s)

/-- RESET_ARM (R282). -/
def execResetArm (r : Fin 8) (d : Descriptor) (s : State) : Host.Outcome State Fault Refusal :=
  .next (hostRow (HostCmd.tagged 4 zeroArgs (fun _ _ s =>
    let (n, s) := hostReset false s
    if n = 0 then accept s else refuse n s)) r d s)

/-- RESET_COMMIT (R282). -/
def execResetCommit (r : Fin 8) (d : Descriptor) (s : State) : Host.Outcome State Fault Refusal :=
  .next (hostRow (HostCmd.tagged 5 zeroArgs (fun _ _ s =>
    let (n, s) := hostReset true s
    if n = 0 then accept s else refuse n s)) r d s)

/-- TWIN_HANDOVER (R422): only the ACTIVE with a partner in slot 15 that is equal; one at a time. -/
def execTwinHandover (r : Fin 8) (d : Descriptor) (s : State) : Host.Outcome State Fault Refusal :=
  .next (hostRow (HostCmd.tagged 6 zeroArgs (fun ref _ s =>
    if s.rck.role ≠ .active || !bit s.rck.pres 15 || !s.rck.peerEqual then refuse Dt.target s
    else if s.scn.reqs.any (fun q => q.2 = .handover) then refuse Dt.busy s
    else .held (addReq ref .handover s))) r d s)

/-- The core that NV_RESTART names. -/
def argCore (d : Descriptor) : CoreId := ⟨fld d.arg0 0 4, Nat.mod_lt _ (by decide)⟩

/-- NV_RESTART (R92, R392): for an unleashed core. A core that the variant lacks is answered ABSENT: a choice of the model
(log entry 101). -/
def execNvRestart (r : Fin 8) (d : Descriptor) (s : State) : Host.Outcome State Fault Refusal :=
  .next (hostRow
    { op := 7, mine := fun _ => true, needsTag := fun _ _ => true,
      args := fun _ d => decide (d.arg0.toNat < 16) && d.arg1 = 0#64,
      present := fun s d => decide ((argCore d).val < s.variant.cores),
      act := fun ref d s =>
        if s.cores[argCore d].st ≠ .unleashed then refuse Dt.target s
        else .held (addReq ref (.nvRestart (argCore d)) s) } r d s)

/-- Whether the sealed store is empty and no key is on its way into it (R390). -/
def storeEmpty (s : State) : Bool := (fins 8).all (fun k => s.nv.sealed[k].isNone) && s.hst.keyStores.isEmpty

/-- The slot that KEY_STORE names. -/
def argSlot (d : Descriptor) : Fin 8 := ⟨fld d.arg0 0 3, Nat.mod_lt _ (by decide)⟩

/-- A host address aligned to 4 (R392). -/
def hostAligned (d : Descriptor) : Bool := fld d.arg1 0 2 = 0

/-- KEY_STORE (R390): the key is read from host memory. Untagged to slot 0 while the whole store is empty. -/
def execKeyStore (r : Fin 8) (d : Descriptor) (s : State) : Host.Outcome State Fault Refusal :=
  .next (hostRow
    { op := 8, mine := fun _ => true, needsTag := fun s d => !(storeEmpty s && argSlot d = 0),
      args := fun _ d => fld d.arg0 3 29 = 0 && hostAligned d, present := fun _ _ => true,
      act := fun _ _ s => .dma s } r d s)

/-- The conditions of KEY_STORE once the key is read (R390): the DETAIL that refuses it, 0 if they hold. -/
def keyDetail (s : State) (d : Descriptor) : Nat :=
  let want : Fin 8 := if s.hst.slots[argSlot d].isSome then argSlot d else 0
  if s.scn.mode ≠ .stop then Dt.mode else if !s.scn.commEn then Dt.key
  else if d.tagged && decide (d.slot ≠ want) then Dt.target else 0

/-- A read of host memory as `n` bytes. -/
def dmaBytes (n : Nat) (bs : List Byte) : List Byte := bs.take n ++ List.replicate (n - bs.length) 0#8

/-- A new key from the next descriptor on: the volatile slot holds it, its SEQ restarts on every ring, and its write to the
sealed store begins (R390). -/
def keyTake (ref : CmdRef) (k : Fin 8) (key : List Byte) (s : State) : State :=
  modHst (fun h => { h with keyStores := h.keyStores ++ [(ref, k, key)], slots := vset h.slots k (some key),
                            seqs := vmap (fun v => vset v k 0#32) h.seqs }) s

/-- The end of KEY_STORE's read: steps 9 and 10 of R391. An untagged store is accepted once: the second of two finds the
store no longer empty and ends as one that needs a tag. -/
def keyStoreRead (ref : CmdRef) (d : Descriptor) (bytes : List Byte) (s : State) : State :=
  let key := dmaBytes 32 bytes
  if crc32c key ≠ w32 (fld d.arg0 32 32) then complete ref St.payloadCrc 0 s
  else if !d.tagged && !storeEmpty s then complete ref St.notTagged 0 s
  else match keyDetail s d with
    | 0 => keyTake ref (argSlot d) key (seqTake ref.ring d s)
    | n => complete ref St.refused n s

/-- SEALED_STORE_WRITE_END (R390): the sealed store holds the key, and its command completes. -/
def execSealedStoreWriteEnd (s : State) : Host.Outcome State Fault Refusal :=
  .next (match s.hst.keyStores with
    | [] => s
    | (ref, k, key) :: rest =>
      let s := { s with nv := { s.nv with sealed := vset s.nv.sealed k (some (key, crc32c key)) } }
      let s := modHst (fun h => { h with keyStores := rest }) s
      complete ref St.ok 0 s)

/-! ### Rings 1 and 5: the host request area (R394) -/

/-- The signal that HREQ_SET names. -/
def argSig (d : Descriptor) : Sig := ⟨bit d.arg0 31, fld d.arg0 0 23⟩

/-- The arguments of HREQ_SET: a signal of the host request area, a 32-bit value. -/
def hreqArgs (_s : State) (d : Descriptor) : Bool :=
  let g := argSig d
  fld d.arg0 23 8 = 0 && fld d.arg0 32 32 = 0 && fld d.arg1 32 32 = 0 && g.inRange && g.area = .hostReq

/-- The value of HREQ_SET: bit 0 of a Boolean. -/
def hreqVal (d : Descriptor) : Word :=
  let v := w32 d.arg1.toNat
  if bit d.arg0 31 then v else v &&& 1#32

/-- A write that enters the next snapshot (R394). -/
def hreqAdd (counts : Bool) (ref : CmdRef) (d : Descriptor) (s : State) : HostOut :=
  .held { s with pim := { s.pim with hreq := s.pim.hreq ++ [(ref, argSig d, hreqVal d)],
                                     counted := s.pim.counted || counts } }

/-- HREQ_SET (R394). -/
def execHreqSet (r : Fin 8) (d : Descriptor) (s : State) : Host.Outcome State Fault Refusal :=
  .next (hostRow (HostCmd.tagged 0x11 hreqArgs (hreqAdd true)) r d s)

/-- HREQ_SET_DIAG (R392): on ring 5, with COMM_EN active, and not counted for R174. -/
def execHreqSetDiag (r : Fin 8) (d : Descriptor) (s : State) : Host.Outcome State Fault Refusal :=
  .next (hostRow (HostCmd.tagged 0x57 hreqArgs (fun ref d s =>
    if s.scn.commEn then hreqAdd false ref d s else refuse Dt.key s)) r d s)

/-- HOST_REQUEST_TIMEOUT (R174): TMO_ACT boundaries have passed without an accepted HREQ_SET on ring 1. -/
def execHostRequestTimeout (s : State) : Host.Outcome State Fault Refusal :=
  .next (
    if s.pim.tmoAct = 0#16 || decide (s.pim.tmoCnt < s.pim.tmoAct.toNat) || s.pim.hostLost then s
    else { s with pim := { s.pim with hostLost := true, linkLost := true } })

/-- The snapshot of host request writes at B, and the count of R174. -/
def hostSnapshot (s : State) : State :=
  { s with pim := { s.pim with
      hsnap := s.pim.hreq, hreq := [], counted := false,
      tmoCnt := if s.pim.counted then 0 else s.pim.tmoCnt + 1,
      hostLost := s.pim.hostLost && !s.pim.counted } }

/-- The host request signals of the image. -/
def hreqSigs (s : State) : List Sig := (substSigs s).filter (fun g => g.area = .hostReq)

/-- What Agree writes in the host request area (R174, R394): the snapshot's writes, substitutes after a loss, and the
age of the rest. Each write completes. That a write accepted before the loss prevails over the substitute of its signal is a
choice of the model (log entry 127). -/
def hostAgree (s : State) : State :=
  let lost := s.pim.linkLost
  let snap := s.pim.hsnap
  let rest := (hreqSigs s).filter (fun g => !snap.any (fun w => w.2.1 = g))
  let s := forEach rest (fun g s =>
    if lost || bit (areaQual s 0 g) 0 then agreeSubst g (substOf s g) 0 s else agreeQual g (ageQual s g) s) s
  let s := forEach snap (fun w s => agreeWrite w.2.1 w.2.2 (qual 0 5 0) s) s
  let s := { s with pim := { s.pim with linkLost := false, hsnap := [] } }
  let s := if lost then nvEvent Ev.hostAreaSubst 0#32 0#32 s else s
  forEach snap (fun w s => complete w.1 St.ok 0 s) s

/-! ### Ring 3: the Logbook (R507) -/

/-- The first byte and the length that LOG_READ names. -/
def logArgs (d : Descriptor) : Nat × Nat := (fld d.arg0 0 32, fld d.arg0 32 16 + 1)

/-- LOG_READ (R495, R507). -/
def execLogRead (r : Fin 8) (d : Descriptor) (s : State) : Host.Outcome State Fault Refusal :=
  .next (hostRow
    { op := 0x31, mine := fun _ => true, needsTag := fun _ _ => false,
      args := fun _ d => fld d.arg0 48 16 = 0 && decide ((logArgs d).1 + (logArgs d).2 ≤ 0x20000) && hostAligned d,
      present := fun _ _ => true,
      act := fun _ _ s => if s.scn.mode = .start then refuse Dt.mode s else .dma s } r d s)

/-- A byte of the Logbook as LOG_READ shows it: the chosen copy, and the test record in use in the last 64 bytes. -/
def logView (s : State) (o : Nat) : Byte :=
  if 0x1FFC0 ≤ o then (recBase s).seal.bytes.getD (o - 0x1FFC0) 0#8 else logByte s.nv.logs[s.log.chosen] o

/-- LOG_READ completes with UPD_SEQ and POH of the copy read. A tagged one is accepted now (R388). -/
def logReadEnd (ref : CmdRef) (d : Descriptor) (s : State) : State :=
  let m := s.nv.logs[s.log.chosen]
  let bs := (List.range (logArgs d).2).map (fun i => logView s ((logArgs d).1 + i))
  completeWith ref St.ok 0 (BitVec.ofNat 64 (logWord m 4 + 2 ^ 32 * logWord m 8)) 0#64
    (modHst (fun h => { h with dmaOut := some (d.arg1, bs) }) (seqTake ref.ring d s))

/-! ### Ring 5: forces (R179 to R185) -/

/-- The Gazetteer index that a force command names, and its entry's signal. -/
def argGaz (d : Descriptor) : Nat := fld d.arg0 0 32
def gazSig (s : State) (i : Nat) : Option Sig := s.olc.active.bind (fun im => (im.gaz[i]?).bind (·.sig))

/-- A force command refused at arrival: FORCE_REFUSED and the capture (R181, R185). -/
def forceRefused (reason : Nat) (g : Sig) (s : State) : State :=
  forceCap reason g (nvEvent Ev.forceRefused g.arg (w32 reason) s)

/-- The Gazetteer indices with an entry after the next boundary. -/
def forcesNext (s : State) : List Nat :=
  s.pim.cmds.foldl (fun l c => if c.value.isSome then addNew c.gaz l else l.filter (fun i => i ≠ c.gaz))
    (s.pim.forces.map (·.gaz))

/-- Whether a set would overfill the table. -/
def forceFull (entries : List Nat) (i : Nat) : Bool := !entries.contains i && decide (1024 ≤ entries.length)

/-- The arguments of a force command. -/
def forceArgs (value : Bool) (_s : State) (d : Descriptor) : Bool :=
  fld d.arg0 32 32 = 0 && (if value then fld d.arg1 32 32 = 0 else d.arg1 = 0#64)

/-- FORCE_SET (R179, R181). For a signal that the Gazetteer does not know the capture and ARG_A show signal 0: a choice of the
model (log entry 124). -/
def execForceSet (r : Fin 8) (d : Descriptor) (s : State) : Host.Outcome State Fault Refusal :=
  .next (hostRow (HostCmd.tagged 0x51 (forceArgs true) (fun ref d s =>
    match gazSig s (argGaz d) with
    | none => refuse 4 (forceRefused 4 ⟨false, 0⟩ s)
    | some g =>
      let v := g.norm (if g.word then w32 d.arg1.toNat else w32 d.arg1.toNat &&& 1#32)
      match forceRefusal s s.scn.commEn g v with
      | 0 =>
        if forceFull (forcesNext s) (argGaz d) then refuse 1 (forceRefused 1 g s)
        else .held { s with pim := { s.pim with cmds := s.pim.cmds ++ [⟨ref, argGaz d, g, some v⟩] } }
      | n => refuse n (forceRefused n g s))) r d s)

/-- FORCE_CLEAR (R179): a removal is always accepted. -/
def execForceClear (r : Fin 8) (d : Descriptor) (s : State) : Host.Outcome State Fault Refusal :=
  .next (hostRow (HostCmd.tagged 0x52 (forceArgs false) (fun ref d s =>
    match gazSig s (argGaz d) with
    | none => refuse 4 (forceRefused 4 ⟨false, 0⟩ s)
    | some g => .held { s with pim := { s.pim with cmds := s.pim.cmds ++ [⟨ref, argGaz d, g, none⟩] } })) r d s)

/-- FORCE_LIST (R392). -/
def execForceList (r : Fin 8) (d : Descriptor) (s : State) : Host.Outcome State Fault Refusal :=
  .next (hostRow
    { op := 0x53, mine := fun _ => true, needsTag := fun _ _ => false,
      args := fun _ d => d.arg0 = 0#64 && hostAligned d, present := fun _ _ => true, act := fun _ _ s => .dma s } r d s)

/-- The 16 bytes of a force entry (R392). -/
def Force.bytes (f : Force) : List Byte :=
  leBytes 4 f.gaz ++ leBytes 4 f.value.toNat ++ leBytes 4 f.sig.arg.toNat ++ leBytes 4 f.cyc

/-- FORCE_LIST completes with the count. A tagged one is accepted now (R388). -/
def forceListEnd (ref : CmdRef) (d : Descriptor) (s : State) : State :=
  completeWith ref St.ok 0 (BitVec.ofNat 64 s.pim.forces.length) 0#64
    (modHst (fun h => { h with dmaOut := some (d.arg1, s.pim.forces.flatMap Force.bytes) }) (seqTake ref.ring d s))

/-! ### Ring 5: brake tests and exercise -/

/-- BRK_TEST_NOW (R290): the test is due at once. -/
def execBrkTestNow (r : Fin 8) (d : Descriptor) (s : State) : Host.Outcome State Fault Refusal :=
  .next (hostRow
    { op := 0x54, mine := fun _ => true, needsTag := fun _ _ => true,
      args := fun _ d => decide (d.arg0.toNat < 4) && d.arg1 = 0#64, present := fun s _ => s.variant.dio,
      act := fun _ d s =>
        let k : Fin 4 := ⟨fld d.arg0 0 2, Nat.mod_lt _ (by decide)⟩
        if (brkCfg s k).isNone then refuse Dt.target s
        else accept (modBrk k (fun b => { b with due := true }) s) } r d s)

/-- The channel that OUT_EXERCISE names, if it is in range. -/
def argChan (d : Descriptor) : Option Chan :=
  let n := fld d.arg0 0 5
  if bit d.arg0 5 then (if h : n < 4 then some (sbcChan ⟨n, h⟩) else none)
  else (if h : n < 24 then some (outChan ⟨n, h⟩) else none)

/-- Why an exercise of a channel is refused (R294): the DETAIL, 0 if it is not. -/
def exerDetail (s : State) (ch : Chan) : Nat :=
  let o := s.dio.outs[ch]
  let triadOk := match chanTriad s ch with
    | some t => formed s t
    | none => false
  if s.scn.mode ≠ .stop then Dt.mode else if !s.scn.commEn then Dt.key
  else if s.saf.exer.isSome then Dt.busy
  else if !o.vital || chanLead s ch ≠ ch || !triadOk || o.tfail || o.ovld || o.fbLatch || bit s.tri.dynFault ch.val then
    Dt.target else 0

/-- OUT_EXERCISE (R294). -/
def execOutExercise (r : Fin 8) (d : Descriptor) (s : State) : Host.Outcome State Fault Refusal :=
  .next (hostRow
    { op := 0x55, mine := fun _ => true, needsTag := fun _ _ => true,
      args := fun _ d => (argChan d).isSome && fld d.arg0 6 10 = 0 && fld d.arg0 26 38 = 0 &&
        decide (1 ≤ fld d.arg0 16 10 ∧ fld d.arg0 16 10 ≤ 600) && d.arg1 = 0#64,
      present := fun s _ => s.variant.dio,
      act := fun _ d s => match argChan d with
        | some ch => match exerDetail s ch with
          | 0 => accept (modSaf (fun x => { x with exer := some (ch, fld d.arg0 16 10 * (100 * msT)) }) s)
          | n => refuse n s
        | none => refuse Dt.target s } r d s)

/-- EXERCISE_STOP (R295): OK even if no exercise runs. -/
def execExerciseStop (r : Fin 8) (d : Descriptor) (s : State) : Host.Outcome State Fault Refusal :=
  .next (hostRow
    { HostCmd.tagged 0x56 zeroArgs (fun _ _ s => accept (endExercise s)) with present := fun s _ => s.variant.dio } r d s)

/-! ### Rings 6 and 7: messages (R397) -/

/-- The non-vital partition that a ring serves. -/
def ringNv (s : State) (r : Fin 8) : NvId := ⟨s.hst.rings[r].nvpart.toNat, s.hst.rings[r].nvpart.isLt⟩

/-- NV_MSG (R397): outstanding until it is copied into the host area. -/
def execNvMsg (r : Fin 8) (d : Descriptor) (s : State) : Host.Outcome State Fault Refusal :=
  .next (hostRow
    { op := 0x61, mine := fun _ => true, needsTag := fun _ _ => false, args := fun _ _ => true,
      present := fun _ _ => true, act := fun ref d s => .held (modHst (fun h => { h with msgs := h.msgs ++ [(ref, d, ringNv s r)] }) s) }
    r d s)

/-- The 32 bytes of a descriptor (R384). -/
def Descriptor.bytes (d : Descriptor) : List Byte := d.head ++ leBytes 8 d.tag.toNat

/-- The bytes of a host area (R397): the header of a CAN area and the descriptors copied. -/
def hostAreaBytes (s : State) (ds : List Descriptor) (waiting : Nat) : List Byte :=
  leBytes 4 ds.length ++ leBytes 4 waiting ++ leBytes 4 0 ++ leBytes 4 s.scn.cycle ++ ds.flatMap Descriptor.bytes

/-- The messages for one non-vital partition at Gather: those that fit are copied into its active quota window, as for a CAN
area, and completed (R360, R397). An area that does not lie whole in the window is not written (log entry 92). -/
def msgCopy (k : NvId) (s : State) : State :=
  match nvDesc s k, nvWindow s k with
  | some d, some (b, base, size) =>
    let mine := s.hst.msgs.filter (fun m => m.2.2 = k)
    let go := mine.take d.hostCap
    let bytes := hostAreaBytes s (go.map (·.2.1)) (mine.length - go.length)
    if d.hostCap = 0 || decide (size < d.hostOfs + bytes.length) then s
    else
      let s := bankFill b (base + d.hostOfs) bytes s
      let s := modHst (fun h => { h with msgs := h.msgs.filter (fun m => !go.contains m) }) s
      forEach go (fun m s => complete m.1 St.ok 0 s) s
  | _, _ => s

/-- The messages of every non-vital partition. -/
def msgCopies (s : State) : State := forEach (fins 8) msgCopy s

/-! ### The boundary -/

/-- Step 4 of R145: the quotas and the supervision of host requests (R184, R386). -/
def hostShadows (s : State) : State :=
  { modHst (fun h => { h with rings := vmap (fun x => { x with quotaAct := x.quotaSh }) h.rings }) s with
    pim := { s.pim with tmoAct := s.pim.tmoSh } }

end Sys2Proof.Machine
end

