-- ==== Sys2Proof/Machine/ImgChk.lean ====
section
/-!
DEFINITION. Images as wholes: the one that holds nothing, what makes a partition, a bus descriptor, the check jobs or
the tables of an image invalid (R119, R223, R319, R452, R194 steps 3 and 5), and the writing of an image's regions into
the banks (R14, R473).
-/
namespace Sys2Proof.Machine

open Sys2Proof

/-! ### An image that holds nothing -/

/-- A bus descriptor with the reset layout and no station. -/
def UbDesc.blank : UbDesc := { layout := UbLayout.init, stations := [], objects := [], slotLen := [], bitmapBase := none }

/-- A CAN descriptor with the reset settings. -/
def CanDesc.blank : CanDesc := { cfg := 9#32, nbt := 0x013E0F0F#32, dbt := 0x001C0909#32, tdc := 0#32, nvOwner := [] }

/-- An I/O descriptor that names no signal, with the reset settings. -/
def IoDesc.blank : IoDesc :=
  { ins := Vector.replicate 48 ⟨0x80A20BB8#32, none⟩,
    outs := Vector.replicate 24 ⟨true, 0, 0, 100, none, none⟩,
    sbcs := Vector.replicate 4 ⟨none, none⟩, interval := 600, ub := Vector.replicate 2 UbDesc.blank,
    can := Vector.replicate 4 CanDesc.blank, rack := [], twinWord := none, nvStatus := [] }

/-- A safety descriptor that configures nothing. -/
def SafetyDesc.blank : SafetyDesc :=
  { hostReset := false, resetA := none, resetB := none, disc := 0, pulse := none, proof := Vector.replicate 48 false,
    fb := Vector.replicate 24 none, brk := Vector.replicate 4 none }

/-- The image of a module that runs none: SET_ID 0 and no partition. -/
def Image.blank : Image :=
  { setId := 0#32, caps := 0#32, tcyc := none, safeExit := none, parts := Vector.replicate 5 none,
    nvs := Vector.replicate 8 none, gaz := [], owners := [], io := IoDesc.blank, safety := SafetyDesc.blank, chart := [],
    crcMode := Vector.replicate 8 0 }

/-- The image that runs. -/
def runImage (s : State) : Image := s.olc.active.getD Image.blank

/-! ### The checks -/

/-- The root instance address of a descriptor meets step 2 of R116 (R119). -/
def rootOk (d : PartDesc) : Bool := instOk (d.sizeMib * 1048576) d.rootIb

/-- The same for a non-vital descriptor: the size of its window is a setting of R91 and no part of the image, so that the
whole window of R104 counts here (log entry 95). -/
def nvRootOk (d : NvDesc) : Bool := instOk 0x40000000 d.rootIb

/-- The static slots of a station. -/
def Station.slots (x : Station) : List Nat := (List.range x.count).map (fun i => x.first + i)

/-- The outbound slots of partitions on a bus, with their owners (R327). -/
def ownedSlots (im : Image) (b : Fin 2) : List (Nat × PartId) := im.owners.filterMap (fun o => match o.dest with
  | .ubSlot bus n => if bus = b then some (n, o.owner) else none
  | _ => none)

/-- The bytes that a field object takes (R317). -/
def FieldObj.bytes (o : FieldObj) : Nat := if o.word then 2 ^ o.width else 1

/-- The station table, the object map and the slot assignments of a bus are valid under a layout (R319). -/
def ubTableOk (im : Image) (b : Fin 2) (lay : UbLayout) (twin : Bool) : Bool :=
  let d := im.io.ub[b]
  let owned := ownedSlots im b
  let slots := d.stations.flatMap Station.slots ++ owned.map (·.1)
  let owner := fun (p : PartId) => im.parts[p].isSome
  decide (d.stations.map (·.id)).Nodup && decide slots.Nodup &&
  slots.all (fun n => decide (1 ≤ n ∧ n ≤ lay.slots ∧ n ≠ lay.coldSlot)) &&
  decide (d.stations.countP (·.cold) ≤ if twin then 1 else 2) &&
  d.objects.all (fun o =>
    let g : Sig := ⟨o.word, o.signal⟩
    decide (o.byte + o.bytes ≤ lay.payloadMax) && g.inRange && g.area = .input) &&
  d.stations.all (fun x => owner x.owner) && owned.all (fun x => owner x.2)

/-- Every check job names a unit in JOBS (R452). -/
def jobsOk (im : Image) (jobs : Fin 8 → Bool) : Bool := (fins 8).all (fun u => !jobNames im u || jobs u)

/-- Every capability that an image needs is there (R194 step 3, R243). -/
def capsOk (v : Variant) (caps : Word) : Bool := caps &&& ~~~v.caps = 0#32

/-- Every destination has at most one owner (R21, R194 step 5). -/
def ownersOk (im : Image) : Bool := decide (im.owners.map (·.dest)).Nodup

/-- The safety descriptor keeps to its ranges (R280, R286, R289): the discrepancy time of a reset input, a monitor's time and
its channel, vital and the lowest of its gang, and a brake channel's test parameters with the places of its signals. -/
def safetyOk (im : Image) : Bool :=
  let d := im.safety
  let width := fun (o : OutDesc) => match o.gang.val with
    | 0 => 1
    | 1 => 2
    | _ => 4
  let owner := fun (g : Sig) => (im.owners.find? (fun o => o.dest = .signal g)).map (·.owner)
  (d.resetB.isNone || d.resetA.isSome) && (d.resetA.isNone || decide (10 ≤ d.disc ∧ d.disc ≤ 255)) &&
  (fins 24).all (fun n => match d.fb[n] with
    | some m => decide (20 ≤ m.tfb ∧ m.tfb ≤ 500) && im.io.outs[n].vital && n.val % width im.io.outs[n] = 0
    | none => true) &&
  (fins 4).all (fun k => match d.brk[k] with
    | some b =>
      decide (1 ≤ b.interval ∧ b.interval ≤ 255 ∧ b.grace ≤ 255 ∧ 1 ≤ b.tTest ∧ b.tTest ≤ 50 ∧ 1 ≤ b.torque ∧
        b.torque ≤ 100 ∧ 1 ≤ b.thresh ∧ b.thresh ≤ 4095) &&
      (Sig.mk false b.permit).area = .output && owner ⟨false, b.permit⟩ = im.io.sbcs[k].signal.bind owner &&
      (Sig.mk true b.position).inRange && (Sig.mk false b.ack).area = .input && (Sig.mk true b.testWord).area = .input
    | none => true)

/-- The tables of an image pass R223; an image may carry none. -/
def chartOk (im : Image) : Bool := im.chart.isEmpty || tablesOk im.chart

/-- The descriptors of an image and its check jobs: every check of this file but those of the tables, the capabilities
and the owners. -/
def descsOk (im : Image) (lay : Fin 2 → UbLayout) (twin : Bool) (jobs : Fin 8 → Bool) : Bool :=
  (fins 5).all (fun p => match im.parts[p] with
    | some x => rootOk x.desc
    | none => true) &&
  (fins 8).all (fun k => match im.nvs[k] with
    | some x => nvRootOk x.desc
    | none => true) &&
  (fins 2).all (fun b => ubTableOk im b (lay b) twin) && jobsOk im jobs

/-! ### Regions in the banks -/

/-- The words of a program area as bytes. -/
def progBytes (ws : List Word) : List Byte := ws.flatMap (fun w => leBytes 4 w.toNat)

/-- A region cleared in one bank. -/
def clearRange (m : SMap Byte) (lo hi : Nat) : SMap Byte := m.filter (fun e => decide (e.1 < lo ∨ hi ≤ e.1))

/-- A partition image into its region of all three banks: the program area, the initial instance data, and 0 elsewhere. -/
def loadRegion (x : PartImage) (s : State) : State :=
  let b := x.desc.baseMib * 1048576
  let n := x.desc.sizeMib * 1048576
  let s := forEach (fins 3) (fun l s =>
    { s with banks := vupd s.banks l (fun m => clearRange m b (b + n)),
             ecc := vupd s.ecc l (wordsOutside b (b + n)), eccSoft := vupd s.eccSoft l (wordsOutside b (b + n)) }) s
  let s := bankPutAll b (progBytes x.program) s
  forEach x.data (fun d => bankPutAll (b + d.1) (leBytes 4 d.2.toNat)) s

/-- The initial internal signals of a partition image, as one bank's map. -/
def initInts (x : PartImage) : SMap Word :=
  x.ints.foldl (fun m e => if e.1.area = .internal then SMap.set 0#32 m e.1.key (e.1.norm e.2) else m) []

/-- The internal signals of a partition at their initial values in every bank. -/
def loadInts (p : PartId) (x : PartImage) (s : State) : State :=
  forEach (fins 3) (fun l => modImg l (fun m => { m with ints := vset m.ints p (initInts x) })) s

/-- Whether every gang's members have the same VITAL marking (R260). -/
def gangsOk (io : IoDesc) : Bool := (fins 24).all (fun n =>
  let width := match io.outs[n].gang.val with
    | 0 => 1
    | 1 => 2
    | _ => 4
  let lead : Nat := n.val / width * width
  if h : lead < 24 then io.outs[(⟨lead, h⟩ : Fin 24)].vital = io.outs[n].vital else true)

/-- The checks of START (R223, R260, R275, R319): everything but the tables and the units of the check jobs, which
`form` judges as START ends (R452). -/
def imageOk (s : State) (im : Image) : Bool :=
  descsOk im (fun b => im.io.ub[b].layout) s.rck.twinEnSh (fun _ => true) &&
  capsOk s.variant im.caps && ownersOk im && gangsOk im.io && safetyOk im

/-- Whether every configured partition of an image stands on a triad that has been formed (R147, R484). -/
def partsFormed (s : State) (im : Image) : Bool :=
  (fins 5).all (fun t => im.parts[t].isNone || s.triads[t].mode ≠ .notFormed)

/-- Whether an image that is activated counts as valid for R147: a set has passed the checks of R194; a rollback image, which
START may have refused, is judged again. An empty store is no image (R296). -/
def imageStands (s : State) (im : Image) (rolling : Bool) : Bool :=
  partsFormed s im && (!rolling || (decide (im ≠ Image.blank) && chartOk im && imageOk s im &&
    jobsOk im (fun u => s.crc[u].modeAct = 2#2)))

end Sys2Proof.Machine
end

