-- ==== Sys2Proof/Machine/Olc.lean ====
section
/-!
DEFINITION. The on-line change (R186 to R211): staging, the check of a set and its plan, verification, activation at a
boundary with carry-over and forces, rollback and acceptance, and the commands of ring 4 (R193, R395).
-/
namespace Sys2Proof.Machine

open Sys2Proof

def modOlc (f : Olc → Olc) (s : State) : State := { s with olc := f s.olc }

/-! ### Result codes (R208) -/

def Oc.ok : Nat := 0
def Oc.noSpace : Nat := 1
def Oc.format : Nat := 2
def Oc.signature : Nat := 3
def Oc.caps : Nat := 4
def Oc.ownership : Nat := 5
def Oc.target : Nat := 6
def Oc.busy : Nat := 7
def Oc.state : Nat := 8
def Oc.mode : Nat := 9
def Oc.key : Nat := 10
def Oc.tooSlow : Nat := 11
def Oc.lane : Nat := 12
def Oc.waitExpired : Nat := 13
def Oc.stageFault : Nat := 14

/-- OLC_STAT.RESULT. -/
def olcResult (n : Nat) (s : State) : State := modOlc (fun o => { o with result := BitVec.ofNat 8 n }) s

/-- OLC_STAT.STATE (R192). -/
def OlcSt.code : OlcSt → Nat
  | .idle => 0
  | .receiving => 1
  | .checking => 2
  | .staged => 3
  | .verifying => 4
  | .waiting => 5
  | .held => 6

/-- OLC_ID_ACT. -/
def idAct (s : State) : Word := (runImage s).setId

/-- OLC_ID_STAGED: the SET_ID of the set staged, 0 where none is. -/
def idStaged (s : State) : Word :=
  if s.olc.rollback.isSome then 0#32 else (s.olc.header.map (·.setId)).getD 0#32

/-- OLC_ID_ROLLBACK. -/
def idRollback (s : State) : Word := (s.olc.rollback.map (·.setId)).getD 0#32

/-- The SET_ID that an event of the block concerns (R471): of the rollback image while it is being activated, of the
set staged or held otherwise. -/
def olcId (s : State) : Word :=
  if s.olc.rolling then idRollback s else (s.olc.header.map (·.setId)).getD (idAct s)

/-- An event of the block. -/
def olcEvent (code result : Nat) (s : State) : State := nvEvent code (olcId s) (w32 result) s

/-! ### The set and the image it makes -/

/-- The vital partitions of a set: replaced, added or removed (R186, R188). -/
def OlcHeader.has (h : OlcHeader) (p : PartId) : Bool := h.sizes[p].isSome || bit h.removed p.val

/-- The sections of a set start one after another. -/
def sectionAt (h : OlcHeader) (n : Nat) : Nat := (h.sections.take n).foldl (fun a x => a + x.1) 0

/-- Whether pieces cover a length from a place on. -/
def covers (pieces : List (Nat × Nat)) (len : Nat) : Nat → Nat → Bool
  | 0, at_ => decide (len ≤ at_)
  | k + 1, at_ => decide (len ≤ at_) || match pieces.find? (fun x => x.1 ≤ at_ && at_ < x.1 + x.2) with
    | some x => covers pieces len k (x.1 + x.2)
    | none => false

/-- Every section has been received in full (R194 step 1). -/
def olcComplete (o : Olc) (h : OlcHeader) : Bool :=
  (List.range h.sections.length).all (fun n =>
    let mine := (o.recv.filter (fun x => x.1 = n)).map (·.2)
    covers mine ((h.sections.getD n (0, 0#64)).1) mine.length 0)

/-- Every section of one bank's copy meets its CRC (R29, R194 step 1, R201). -/
def olcCrcs (o : Olc) (h : OlcHeader) (l : Lane) : Bool :=
  (List.range h.sections.length).all (fun n =>
    let x := h.sections.getD n (0, 0#64)
    crc64 (getBytes o.bytes[l] (sectionAt h n) x.1) = x.2)

/-- Whether a set carries an image of a non-vital partition. -/
def OlcHeader.hasNv (h : OlcHeader) (k : NvId) : Bool := h.nvSizes[k].isSome

/-- The number of a partition in the staging space: 0 to 4 for P0 to P4, 8 to 15 for N0 to N7. -/
def nvKey (k : NvId) : Nat := 8 + k.val

/-- What a set is laid over: the running image. A set replaces the door loop application as a whole (R296). -/
def keptImage (s : State) : Image :=
  if s.saf.dlaActive then { runImage s with parts := Vector.replicate 5 none, gaz := [], owners := [] } else runImage s

/-- The vital partitions that a change concerns: those of its set, and P0 of the door loop application (R296). -/
def olcHas (s : State) (h : OlcHeader) (p : PartId) : Bool :=
  h.has p || p = 0 && (s.saf.dlaActive || s.olc.rolling && s.saf.dlaBack)

/-- The image after a change: a partition with no section keeps its running image, a removed one has none (R186, R188);
new regions lie where the staging space gave them place (R189); without Chart and route sections the tables stay. -/
def mergeImage (o : Olc) (old : Image) (h : OlcHeader) (v : Image) : Image :=
  let parts := vgen 5 (fun p =>
    if bit h.removed p.val then none
    else match h.sizes[p], v.parts[p] with
    | none, _ => old.parts[p]
    | some n, some x =>
      let at_ := match o.space.find? (fun e => e.1 = p.val) with
        | some e => e.2.1
        | none => x.desc.baseMib
      some { x with desc := { x.desc with baseMib := at_, sizeMib := n } }
    | some _, none => none)
  let nvs := vgen 8 (fun k => match h.nvSizes[k] with
    | some n => v.nvs[k].map (fun x => { x with sizeMib := n })
    | none => old.nvs[k])
  { v with setId := h.setId, caps := h.caps, parts := parts, nvs := nvs,
           chart := if v.chart.isEmpty then old.chart else v.chart }

/-! ### Staging space (R15, R189, R190) -/

/-- The first MiB and the MiB of the vital regions of an image. -/
def imageSpans (im : Image) : List (Nat × Nat) := (fins 5).filterMap (fun p =>
  im.parts[p].map (fun x => (x.desc.baseMib, x.desc.sizeMib)))

/-- The quota windows of the cores: bank code, first MiB and MiB (R91). -/
def quotaSpans (s : State) : List (Nat × Nat × Nat) := (fins 16).filterMap (fun c =>
  let w := s.tri.nvqAct[c]
  if (quotaBank w).isSome && decide (0 < fld w 16 12) then some (fld w 28 2, fld w 0 12, fld w 16 12) else none)

/-- Whether two spans share a MiB. -/
def spansMeet (a b : Nat × Nat) : Bool := decide (a.1 < b.1 + b.2 ∧ b.1 < a.1 + a.2)

/-- Whether `n` MiB from a place lie below bank offset 0xE000_0000 and meet nothing in use. -/
def spanFits (used : List (Nat × Nat)) (n a : Nat) : Bool :=
  decide (a + n ≤ 3584) && used.all (fun u => !spansMeet (a, n) u)

/-- The lowest place of `n` MiB. -/
def lowSpan (used : List (Nat × Nat)) (n : Nat) : Option Nat :=
  ((0 :: used.map (fun u => u.1 + u.2)).filter (spanFits used n)).foldl (fun (best : Option Nat) a => match best with
    | some b => some (if a < b then a else b)
    | none => some a) none

/-- A place of `n` MiB: the wished one if it fits, else the lowest. -/
def findSpan (wish : Option Nat) (used : List (Nat × Nat)) (n : Nat) : Option Nat := match wish with
  | some a => if spanFits used n a then some a else lowSpan used n
  | none => lowSpan used n

/-- Places for the partition images of a header, none if one finds no place. -/
def placeAll (wish : Nat → Option Nat) (used : List (Nat × Nat)) :
    List (Nat × Nat) → Option (List (Nat × Nat × Nat))
  | [] => some []
  | (p, n) :: rest => match findSpan (wish p) used n with
    | none => none
    | some a => (placeAll wish ((a, n) :: used) rest).map (fun l => (p, a, n) :: l)

/-- The vital partition images of a header with their sizes. -/
def newRegions (h : OlcHeader) : List (Nat × Nat) := (fins 5).filterMap (fun p => h.sizes[p].map (fun n => (p.val, n)))

/-- Every partition image of a header with its size (R186, R187). -/
def newSpans (h : OlcHeader) : List (Nat × Nat) :=
  newRegions h ++ (fins 8).filterMap (fun k => h.nvSizes[k].map (fun n => (nvKey k, n)))

/-- The regions of the running image that a set replaces or removes. -/
def replacedSpans (s : State) (h : OlcHeader) : List (Nat × Nat × Nat) := (fins 5).filterMap (fun p =>
  if olcHas s h p then (partDesc s p).map (fun d => (p.val, d.baseMib, d.sizeMib)) else none)

/-- The MiB of the images of the running image that a set replaces or removes (R190). -/
def replacedMib (s : State) (h : OlcHeader) : Nat :=
  ((replacedSpans s h).map (·.2.2)).foldl (· + ·) 0 + ((fins 8).filterMap (fun k =>
    if h.nvSizes[k].isSome then (runImage s).nvs[k].map (·.sizeMib) else none)).foldl (· + ·) 0

/-- The MiB of spans. -/
def totalMib (l : List Nat) : Nat := l.foldl (· + ·) 0

/-- The limit of R15 in each bank after a change. -/
def limitOk (s : State) (h : OlcHeader) : Bool :=
  let kept := (fins 5).filterMap (fun p => if olcHas s h p then none else (partDesc s p).map (·.sizeMib))
  let regions := totalMib kept + totalMib ((newRegions h).map (·.2))
  (newRegions h).all (fun x => decide (x.2 ≤ 1024)) &&
  (fins 3).all (fun l =>
    let quotas := totalMib (((quotaSpans s).filter (fun q => q.1 = l.val + 1)).map (·.2.2))
    decide (regions + quotas + s.nv.stageSize.toNat ≤ 3584))

/-- The places that the set of a header gets, none for NO_SPACE (R15, R189, R190): where in the free span, the spec
leaves open, and free values say (log entry 24). -/
def stagePlaces (s : State) (h : OlcHeader) : Option (List (Nat × Nat × Nat)) :=
  let used := imageSpans (runImage s) ++ (quotaSpans s).map (fun q => (q.2.1, q.2.2))
  let size := s.nv.stageSize.toNat
  if decide (totalMib ((newSpans h).map (·.2)) ≤ size) && decide (replacedMib s h ≤ size) &&
      limitOk s h then
    let wish := fun n : Nat => some ((Config.freeWord (s.freeDraws + n)).toNat % 3584)
    (placeAll wish used (newSpans h)).orElse (fun _ => placeAll (fun _ => none) used (newSpans h))
  else none

/-- A header is well formed under R187: it has sections, enough of them for its images, and no partition is both
replaced and removed. -/
def headerOk (h : OlcHeader) : Bool :=
  !h.sections.isEmpty && decide (h.sections.length ≤ 256) &&
  decide ((newSpans h).length ≤ h.sections.length) &&
  (fins 5).all (fun p => !(h.sizes[p].isSome && bit h.removed p.val)) &&
  (newSpans h).all (fun x => decide (0 < x.2))

/-! ### The plan (R195 to R200) -/

/-- The last point of a path. -/
def pathParent (p : String) : Option String :=
  let cs := p.toList.reverse.dropWhile (fun c => c ≠ '.')
  match cs with
  | [] => none
  | _ :: rest => some (String.ofList rest.reverse)

/-- Whether a path lies below another. -/
def pathBelow (outer p : String) : Bool := (outer.toList ++ ['.']).isPrefixOf p.toList

/-- Whether a library block of a Gazetteer holds an entry: such an entry is not judged by itself (R196). -/
def inLibrary (gaz : List GazEntry) (e : GazEntry) : Bool := gaz.any (fun x => x.library && pathBelow x.path e.path)

/-- The entry at a path. -/
def gazAt (gaz : List GazEntry) (p : String) : Option GazEntry := gaz.find? (fun e => e.path = p)

/-- MATCHED (R196): equal hash or type code, and for an instance a version no lower: an elementary variable or signal is
judged by its path and type code. -/
def gazMatch (old new : GazEntry) : Bool :=
  old.hash = new.hash && old.inst = new.inst && old.sig.isSome = new.sig.isSome &&
  (!new.inst || decide (old.version ≤ new.version)) && match old.sig, new.sig with
    | some a, some b => a.word = b.word
    | _, _ => true

/-- The entries of a Gazetteer whose partition is in a set and which are judged. -/
def judged (gaz : List GazEntry) (has : PartId → Bool) : List GazEntry :=
  gaz.filter (fun e => has e.part && !inLibrary gaz e)

/-- A step of an SFC chart: an instance right below a chart that is no library block and no chart (R199). -/
def isStep (gaz : List GazEntry) (e : GazEntry) : Bool :=
  e.inst && !e.library && !e.chart && match pathParent e.path with
    | some q => gaz.any (fun x => x.chart && x.path = q)
    | none => false

/-- Whether the state words of a MATCHED entry are copied: a user-defined block is carried variable by variable. -/
def carriesBytes (gaz : List GazEntry) (e : GazEntry) : Bool :=
  e.sig.isNone && (!e.inst || e.library || e.chart || isStep gaz e)

/-- Whether a MATCHED signal is carried (R197). -/
def carriesSig (e : GazEntry) : Bool := match e.sig with
  | some g => g.area = .internal || g.area = .output || g.area = .boundary
  | none => false

/-- The plan of a change (R196, R200): the MATCHED entries, old and new, and the counts of the other classes. -/
structure OlcPlan where
  pairs : List (GazEntry × GazEntry)
  new : Nat
  removed : Nat
  retyped : Nat
  bytes : Nat
  deriving DecidableEq, Repr

/-- The plan from an old to a new image for the partitions of a set. A signal counts four bytes (log entry 7). What lay
inside a library block of the old image is not judged by itself, and so is RETYPED (R196). -/
def planOf (old new : Image) (has : PartId → Bool) : OlcPlan :=
  let ns := judged new.gaz has
  let pairs := ns.filterMap (fun n => (gazAt old.gaz n.path).bind (fun o =>
    if gazMatch o n && !inLibrary old.gaz o then some (o, n) else none))
  let isNew := ns.countP (fun n => (gazAt old.gaz n.path).isNone)
  let gone := (judged old.gaz has).countP (fun o => (gazAt new.gaz o.path).isNone)
  let bytes := pairs.foldl (fun a x =>
    if carriesBytes new.gaz x.2 then a + min x.1.bytes x.2.bytes else if carriesSig x.2 then a + 4 else a) 0
  { pairs := pairs, new := isNew, removed := gone, retyped := ns.length - pairs.length - isNew, bytes := bytes }

/-- OLC_PLAN_US (R200): at 8 GB/s and 40 µs, rounded up to whole µs. -/
def planTime (bytes : Nat) : Nat := (bytes + 7999) / 8000 + 40

/-- The plan into the OLC_PLAN registers. -/
def showPlan (p : OlcPlan) (s : State) : State :=
  modOlc (fun o => { o with planMatch := w32 p.pairs.length, planNew := w32 p.new, planRemoved := w32 p.removed,
                            planRetyped := w32 p.retyped, planBytes := w32 p.bytes,
                            planUs := min (planTime p.bytes) 0xFFFF }) s

/-- The plan registers read 0 outside STAGED, VERIFYING and WAITING. -/
def hidePlan (s : State) : State :=
  modOlc (fun o => { o with planMatch := 0#32, planNew := 0#32, planRemoved := 0#32, planRetyped := 0#32,
                            planBytes := 0#32, planUs := 0 }) s

/-! ### The end of a set -/

/-- The staging space and everything received is freed, and the state is IDLE. -/
def olcFree (s : State) : State :=
  hidePlan (modOlc (fun o =>
    { o with st := .idle, header := none, recv := [], bytes := Vector.replicate 3 [], staged := none, space := [],
             rolling := false, waitCnt := 0 }) s)

/-- The staged set is freed by command or refusal: HELD while a rollback image is held, IDLE otherwise (R193, R194). -/
def olcDiscard (s : State) : State :=
  if s.olc.rollback.isSome then
    hidePlan (modOlc (fun o => { o with st := .held, rolling := false, waitCnt := 0 }) s)
  else olcFree s

/-- The staged set, or the rollback image, is discarded (R191, R201, R202, R205). -/
def olcLose (s : State) : State :=
  olcFree (modOlc (fun o => { o with rollback := none, accepting := false }) s)

/-- The outstanding ring 4 command of an opcode, which waits for the state to change (R395). -/
def olcWaiter (s : State) (op : Nat) : Option CmdRef :=
  (s.hst.rings[(4 : Fin 8)].outs.find? (fun c => c.desc.opcode.toNat = op && !c.dma)).map (fun c => ⟨4, c.no⟩)

/-- A waiting ring 4 command completes with a result code (R393). -/
def olcDone (op result : Nat) (s : State) : State :=
  match olcWaiter s op with
  | some ref => complete ref (if result = 0 then St.ok else St.refused) result (olcResult result s)
  | none => olcResult result s

/-! ### The check (R194) -/

/-- An added partition names a triad that is present. -/
def targetsOk (s : State) (h : OlcHeader) : Bool := (fins 5).all (fun p =>
  h.sizes[p].isNone || (partImg s p).isSome || decide (p.val < s.variant.triads))

/-- The units that serve check jobs now (R449). -/
def jobsMode (s : State) (u : Fin 8) : Bool := s.crc[u].modeAct = 2#2

/-- The word that an image's initial instance data hold at a region offset. -/
def dataWord (data : List (Nat × Word)) (ofs : Nat) : Word := ((data.find? (fun d => d.1 = ofs)).map (·.2)).getD 0#32

/-- An instance header (R115): a TYPE_HASH that the Gazetteer knows, and a PATH below its length. -/
def headerKnown (im : Image) (data : List (Nat × Word)) (at_ : Nat) : Bool :=
  im.gaz.any (fun y => y.inst && y.hash = dataWord data at_) && decide ((dataWord data (at_ + 8)).toNat < im.gaz.length)

/-- Step 6 of R194: every instance header of the set's vital and non-vital images, those that the new Gazetteer names among
them. -/
def instHeadersOk (im : Image) (has : PartId → Bool) (hasNv : NvId → Bool) : Bool :=
  (fins 5).all (fun p => !has p || match im.parts[p] with
    | some x => x.heads.all (headerKnown im x.data) &&
        (im.gaz.filter (fun e => e.inst && e.part = p)).all (fun e => headerKnown im x.data e.head)
    | none => true) &&
  (fins 8).all (fun k => !hasNv k || match im.nvs[k] with
    | some x => x.heads.all (headerKnown im x.data)
    | none => true)

/-- One lane's verdict on its copy of the set: the result code of the first failing step, 0 if it passes. -/
def laneVerdict (s : State) (h : OlcHeader) (l : Lane) (v : LaneCheck) : Nat :=
  let im := mergeImage s.olc (keptImage s) h v.image
  if !(v.crcOk && olcComplete s.olc h && olcCrcs s.olc h l) then Oc.signature
  else if h.base ≠ idAct s then Oc.format
  else if !capsOk s.variant h.caps then Oc.caps
  else if !targetsOk s h then Oc.target
  else if !ownersOk im then Oc.ownership
  else if !(instHeadersOk im h.has (fun k => h.nvSizes[k].isSome) && descsOk im (fun b => ubLay s b) s.rck.twinEnAct (jobsMode s) && chartOk v.image) then Oc.format
  else Oc.ok

/-- A set is refused (R194): the space is freed, OLC_CHECK_FAIL, and OLC_END completes. -/
def olcRefuse (result : Nat) (s : State) : State :=
  let s := olcEvent Ev.olcCheckFail result s
  olcDone 0x43 result (olcDiscard s)

/-- OLC_CHECK_END (R194): the verdicts and plans of the three lanes. -/
def execOlcCheckEnd (v : Vector LaneCheck 3) (s : State) : Host.Outcome State Fault Refusal :=
  .next (match s.olc.st, s.olc.header with
    | .checking, some h =>
      let verdict := fun (l : Lane) => laneVerdict s h l v[l]
      let image := fun (l : Lane) => mergeImage s.olc (keptImage s) h v[l].image
      let r := verdict 0
      if (fins 3).any (fun l => verdict l ≠ r) || (r = 0 && (fins 3).any (fun l => image l ≠ image 0)) then
        olcRefuse Oc.lane (olcEvent Ev.olcStageFault Oc.lane s)
      else if r ≠ 0 then olcRefuse r s
      else
        let im := image 0
        let s := forEach (fins 5) (fun p s => match h.sizes[p], im.parts[p] with
          | some _, some x => loadRegion x s
          | _, _ => s) s
        let s := modOlc (fun o => { o with st := .staged, staged := some im }) (showPlan (planOf (runImage s) im (olcHas s h)) s)
        olcDone 0x43 Oc.ok (olcEvent Ev.olcStaged Oc.ok s)
    | _, _ => s)

/-! ### Verification and waiting (R201, R202) -/

/-- The image that VERIFYING and WAITING are for. -/
def olcTarget (s : State) : Option Image := if s.olc.rolling then s.olc.rollback else s.olc.staged

/-- The command that waits for VERIFYING to end. -/
def verifyOp (s : State) : Nat := if s.olc.rolling then 0x46 else 0x44

/-- A staged copy or the rollback image is bad (R191): it is discarded, and a command that waited for it ends. -/
def olcFault (s : State) : State :=
  let op := if s.olc.st = .checking then 0x43 else verifyOp s
  let acc := s.olc.accepting
  let s := modOlc (fun o => { o with accepting := acc }) (olcLose (olcEvent Ev.olcStageFault Oc.stageFault s))
  olcDone op Oc.stageFault s

/-- OLC_VERIFY_END (R201): WAITING if every bank's copy is good, else the set or the rollback image is discarded. -/
def execOlcVerifyEnd (ok : Vector Bool 3) (s : State) : Host.Outcome State Fault Refusal :=
  .next (
    if s.olc.st ≠ .verifying then s
    else
      let good := (fins 3).all (fun l => ok[l] && (s.olc.rolling || match s.olc.header with
        | some h => olcCrcs s.olc h l
        | none => true))
      let op := verifyOp s
      if good then olcDone op Oc.ok (modOlc (fun o => { o with st := .waiting, waitCnt := 0 }) s)
      else olcDone op Oc.stageFault (olcLose (olcEvent Ev.olcStageFault Oc.stageFault s)))

/-- OLC_WAIT_EXPIRY (R202): WAIT_LIMIT boundaries have passed in WAITING. -/
def execOlcWaitExpiry (s : State) : Host.Outcome State Fault Refusal :=
  .next (
    if s.olc.st = .waiting && decide (s.olc.waitAct.toNat ≤ s.olc.waitCnt) then
      olcResult Oc.waitExpired (olcLose (olcEvent Ev.olcAbandoned Oc.waitExpired s))
    else s)

/-- OLC_ACCEPT_DONE (R204, R206): the program store holds the active image. -/
def execOlcAcceptDone (s : State) : Host.Outcome State Fault Refusal :=
  .next (
    if !s.olc.accepting then s
    else
      let s := { s with nv := { s.nv with store := s.olc.active } }
      let s := olcEvent Ev.olcAccepted Oc.ok s
      olcDone 0x47 Oc.ok (if s.olc.st = .held then olcLose s else modOlc (fun o => { o with accepting := false }) s))

/-! ### Activation (R202, R203) -/

/-- Whether a triad of the set is fit: TRIAD or IDLE, and IDLE with three lanes for an added partition (R202). -/
def triadFit (s : State) (new : Image) (p : PartId) : Bool :=
  match triadOf s p with
  | some t => s.triads[t].mode = .triad || s.triads[t].mode = .idle
  | none => new.parts[p].isNone ||
      (s.triads[p].mode = .idle && s.triads[p].part.isNone && (fins 3).all (fun l => s.triads[p].cores[l].isSome))

/-- The conditions of R202 at a boundary, after step 5 of R145. -/
def mayActivate (s : State) (has : PartId → Bool) (new : Image) : Bool :=
  (s.scn.mode = .stop || s.scn.mode = .run || s.scn.mode = .hold) && (s.scn.commEn || !s.olc.keyReqAct) &&
  (fins 5).all (fun p => !has p || (triadFit s new p && !s.tri.hoSwitched.contains p &&
    !(s.tri.hoValid && s.tri.hoPart.toNat = p.val)))

/-- The charts of the set that stand at one path in both images, MATCHED or RETYPED: old and new (R199). -/
def chartPairs (old new : Image) (has : PartId → Bool) : List (GazEntry × GazEntry) :=
  ((judged new.gaz has).filter (·.chart)).filterMap (fun n =>
    ((gazAt old.gaz n.path).filter (·.chart)).map (fun o => (o, n)))

/-- The chart whose whole state is reset (R199): an old step of it is active and is REMOVED or RETYPED. A step is active
if its first state word is not 0 (log entry 25). -/
def chartResets (s : State) (old : Image) (pairs : List (GazEntry × GazEntry)) (o : GazEntry) : Bool :=
  o.chart && (old.gaz.filter (fun e => isStep old.gaz e && pathParent e.path = some o.path)).any (fun e =>
    !pairs.any (fun x => x.1.path = e.path) && match regionOf s e.part with
      | some (b, _) => bankWord s 0 (b + e.ofs) ≠ 0#32
      | none => false)

/-- The entries whose state words are copied: the MATCHED ones, and the charts, which are carried step by step (R199);
not those of charts that are reset, and of their steps. -/
def carried (s : State) (old new : Image) (has : PartId → Bool) (pairs : List (GazEntry × GazEntry)) :
    List (GazEntry × GazEntry) :=
  let charts := chartPairs old new has
  let reset := (charts.filter (fun x => chartResets s old pairs x.1)).map (·.2.path)
  (pairs ++ charts.filter (fun x => !pairs.contains x)).filter (fun x => carriesBytes new.gaz x.2 && !reset.contains x.2.path &&
    !(isStep new.gaz x.2 && match pathParent x.2.path with
      | some q => reset.contains q
      | none => false))

/-- The state words of one entry, copied bank by bank from the old region to the new one (R200). -/
def carryBytes (s0 : State) (old new : Image) (x : GazEntry × GazEntry) (s : State) : State :=
  match old.parts[x.1.part], new.parts[x.2.part] with
  | some a, some b => forEach (fins 3) (fun l s =>
      bankPut l (b.desc.baseMib * 1048576 + x.2.ofs)
        (bankBytes s0 l (a.desc.baseMib * 1048576 + x.1.ofs) (min x.1.bytes x.2.bytes)) s) s
  | _, _ => s

/-- The value of a signal moved from its old place to its new one in one bank, also from one area to another (R196,
R197): the owner's value, and the copy that others read, which an internal signal does not have. -/
def carrySig (m0 : LaneImg) (x : GazEntry × GazEntry) (m : LaneImg) : LaneImg :=
  match x.1.sig, x.2.sig with
  | some a, some b =>
    let inner := a.area = .internal
    let cur := if inner then SMap.get 0#32 m0.ints[x.1.part] a.key else SMap.get 0#32 m0.cur a.key
    let cpy := if inner then cur else SMap.get 0#32 m0.cpy a.key
    if b.area = .internal then { m with ints := vupd m.ints x.2.part (fun i => SMap.set 0#32 i b.key cur) }
    else if b.area = .output ∨ b.area = .boundary then
      { m with cur := SMap.set 0#32 m.cur b.key cur, cpy := SMap.set 0#32 m.cpy b.key cpy }
    else m
  | _, _ => m

/-- Output and boundary signals of a Gazetteer's entries at a value, in one bank. -/
def putSigs (val : GazEntry → Word) (es : List GazEntry) (m : LaneImg) : LaneImg :=
  es.foldl (fun m e => match e.sig with
    | some g => if g.area = .output ∨ g.area = .boundary then
        { m with cur := SMap.set 0#32 m.cur g.key (val e), cpy := SMap.set 0#32 m.cpy g.key (val e) } else m
    | none => m) m

/-- The signals of the set's partitions at the new image's initial values, before the carry-over: internal signals at
those of the image, output and boundary signals at their safe values (R173, R196). -/
def initSigs (old new : Image) (has : PartId → Bool) (m : LaneImg) : LaneImg :=
  let m := { m with ints := vgen 5 (fun p => if has p then (match new.parts[p] with
    | some x => initInts x
    | none => []) else m.ints[p]) }
  putSigs (·.safe) (new.gaz.filter (fun e => has e.part)) (putSigs (fun _ => 0#32) (old.gaz.filter (fun e => has e.part)) m)

/-- The carry-over (R197 to R200). -/
def carryOver (old new : Image) (has : PartId → Bool) (s : State) : State :=
  let plan := planOf old new has
  let s0 := s
  let resets := (chartPairs old new has).filter (fun x => chartResets s0 old plan.pairs x.1)
  let s := forEach (carried s0 old new has plan.pairs) (carryBytes s0 old new) s
  let s := forEach (fins 3) (fun l => modImg l (fun m =>
    (plan.pairs.filter (fun x => carriesSig x.2)).foldl (fun m' x => carrySig m x m') (initSigs old new has m))) s
  forEach resets (fun x => nvEvent Ev.sfcReset (olcId s) (w32 (new.gaz.findIdx (fun e => e.path = x.2.path)))) s

/-- The first offset and the length of a mirror block (R406). -/
def mirBlock (j : Nat) : Nat × Nat := if j = 0 then (0x40, 192) else (0x100 * j, 256)

/-- A mirror block without an owner reads 0 (R406). -/
def mirClear (j : Nat) (s : State) : State :=
  let (ofs, n) := mirBlock j
  let zero := fun m => putBytes m ofs (List.replicate n 0#8)
  { s with rck := { s.rck with mirNext := zero s.rck.mirNext, mirCur := zero s.rck.mirCur } }

/-- Destinations that lose their owner: signals take their safe values (R188), mirror blocks read 0 (R406). -/
def dropOwned (old new : Image) (s : State) : State :=
  forEach old.owners (fun o s => match o.dest with
    | .signal g => if new.owners.any (fun n => n.dest = o.dest) then s else setCpy g (safeOf s g) (setCur g (safeOf s g) s)
    | .mirror j => if new.owners.any (fun n => n.dest = o.dest) then s else mirClear j s
    | _ => s) s

/-- A vital partition's places under the new image: its descriptor's flags, and the triad of an added or removed one. -/
def switchPart (old new : Image) (p : PartId) (s : State) : State :=
  match old.parts[p], new.parts[p] with
  | some _, none =>
    let s := match triadOf s p with
      | some t => modTriad t (fun x => { x with part := none, mode := .idle }) s
      | none => s
    modPart p (fun x => { x with st := .none, isolated := false, svyUse := false }) s
  | none, some n =>
    modPart p (fun x =>
      { x with st := .ready, isolated := n.desc.isolated, svyUse := n.desc.svyUse, substOut := false, cpySubst := false })
      (modTriad p (fun x => { x with part := some p, mode := .triad }) s)
  | some _, some n => modPart p (fun x => { x with isolated := n.desc.isolated, svyUse := n.desc.svyUse }) s
  | none, none => s

/-- A non-vital partition under the new image (R188). -/
def switchNv (new : Image) (k : NvId) (s : State) : State :=
  modNv k (fun x => { x with st := if new.nvs[k].isNone then .none else if x.st = .none then .waiting else x.st }) s

/-- What the new I/O and safety descriptors change at once, and what waits for the next START (R261, R275, R296). -/
def switchDescs (new : Image) (s : State) : State :=
  let ioDiff := match s.dio.io with
    | some io => ioDiffers io new.io
    | none => false
  let safDiff := decide (s.saf.desc ≠ some new.safety.masked)
  let s := { s with dio := { s.dio with iocfgDiff := ioDiff }, saf := { s.saf with cfgDiff := safDiff } }
  let s := if ioDiff && s.variant.dio then nvEvent Ev.ioCfgDeferred 0#32 0#32 s else s
  let s := if safDiff then nvEvent Ev.safCfgDeferred 0#32 0#32 s else s
  let dla := s.olc.rolling && s.saf.dlaBack
  modSaf (fun x => { x with dlaActive := dla, dlaBack := !s.olc.rolling && s.saf.dlaActive,
                            dlaSt := if dla then 0x80000000#32 else 0#32 }) s

/-- The source field of the quality words, and the values, as the new image delivers the signals (R173, R320): a signal that the
new image takes from another source, or from none, shows it from now on, and one new in its Gazetteer holds its safe value
until a source first delivers. -/
def reSource (old new : Image) (s : State) : State :=
  let s := forEach (fins 3) (fun l => modImg l (fun m => { m with qual := (m.qual.map (fun e =>
    let g := Sig.ofKey e.1
    if sourceOf old g = sourceOf new g then e
    else (e.1, (e.2 &&& 0xFFFF0FFF#32) ||| w32 (4096 * sourceOf new g)))).filter (fun e => e.2 ≠ 0#32) })) s
  forEach new.gaz (fun e s => match e.sig with
    | some g =>
      if (g.area = .input ∨ g.area = .hostReq) ∧ !old.gaz.any (fun o => o.sig = some g) ∧
          SMap.get 0#32 s.pim.img[(0 : Lane)].qual g.key = 0#32 then setCur g (safeOf s g) s else s
    | none => s) s

/-- Step 2 of R203: ownership, regions, Gazetteer, Chart and route table switch. -/
def switchImage (old new : Image) (has : PartId → Bool) (s : State) : State :=
  let s := dropOwned old new s
  let s := reSource old new (modOlc (fun o => o.setActive (some new)) s)
  let s := forEach (fins 5) (switchPart old new) s
  let s := forEach (fins 8) (switchNv new) s
  let s := if new.chart = old.chart then s else
    { s with svy := { s.svy with table := Vector.replicate 3 new.chart } }
  let s := forEach (fins 2) (fun b => ubRetable b old.io.ub[b].stations new.io.ub[b].stations) s
  let s := switchDescs new s
  oweAll ((fins 5).filter has) s

/-- Whether a force survives a change, and under which Gazetteer index and signal (R207). -/
def forceKept (s : State) (old new : Image) (f : Force) : Option (Nat × Sig) :=
  match old.gaz[f.gaz]? with
  | none => none
  | some o =>
    let i := new.gaz.findIdx (fun e => e.path = o.path)
    match new.gaz[i]? with
    | none => none
    | some n => match n.sig with
      | some g =>
        if gazMatch o n && !(s.scn.mode = .run && n.vitalOut && decide (f.value ≠ n.safe)) then some (i, g) else none
      | none => none

/-- OLC_FORCE_LOSS while STAGED (R207). -/
def forceLoss (s : State) : Nat := match s.olc.st, s.olc.staged with
  | .staged, some new => s.pim.forces.countP (fun f => (forceKept s (runImage s) new f).isNone)
  | _, _ => 0

/-- Step 3 of R203: each entry of the force table is judged. -/
def switchForces (old new : Image) (s : State) : State :=
  let s := forEach s.pim.forces (fun f s => if (forceKept s old new f).isNone then removeForce f 10 s else s) s
  { s with pim := s.pim.setForces (s.pim.forces.filterMap (fun f =>
      (forceKept s old new f).map (fun x => { f with gaz := x.1, sig := x.2 }))) }

/-- The regions of the rollback image take its initial contents before the carry-over: what it held when it was replaced
is no state of the running image (R196, R205). -/
def reloadParts (new : Image) (has : PartId → Bool) (s : State) : State :=
  forEach (fins 5) (fun p s => match new.parts[p] with
    | some x => if has p then loadRegion x s else s
    | none => s) s

/-- The activation of R203, or, for the rollback image, of R205. -/
def activate (new : Image) (s : State) : State :=
  let old := runImage s
  let rolling := s.olc.rolling
  let has := fun (p : PartId) => match s.olc.header with
    | some h => olcHas s h p
    | none => false
  let replaced := (fins 5).filterMap (fun p =>
    if has p then old.parts[p].map (fun x => (p.val, x.desc.baseMib, x.desc.sizeMib)) else none) ++
    s.olc.space.filterMap (fun e => ((fins 8).find? (fun k => nvKey k = e.1)).bind (fun k =>
      old.nvs[k].map (fun x => (e.1, e.2.1, x.sizeMib))))
  let us := s.olc.planUs
  let s := if rolling then reloadParts new has s else s
  let s := carryOver old new has s
  let s := switchImage old new has s
  let s := switchForces old new s
  let s := modOlc (fun o => { o with actCyc := w32 s.scn.cycle, carryUs := us }) s
  let s := { s with scn := { s.scn with imageValid := imageStands s new rolling } }
  let s := if rolling then olcLose (olcEvent Ev.olcRolledBack Oc.ok (logModule 19 s))
    else
      let s := olcEvent Ev.olcActivated Oc.ok (logModule 18 s)
      hidePlan (modOlc (fun o => { o with st := .held, rollback := some old, staged := none, recv := [],
                                          bytes := Vector.replicate 3 [], space := replaced, waitCnt := 0 }) s)
  refreshCodes s

/-- Step 6 of R145. Boundaries in SAFE count toward WAIT_LIMIT too (R202). -/
def olcTurn (s : State) : State :=
  let s := modOlc (fun o => { o with carryUs := 0 }) s
  if s.olc.st ≠ .waiting then s
  else match olcTarget s, s.olc.header with
  | some new, some h =>
    if decide (s.olc.waitCnt < s.olc.waitAct.toNat) && mayActivate s (olcHas s h) new then activate new s
    else modOlc (fun o => { o with waitCnt := o.waitCnt + 1 }) s
  | _, _ => s

/-- Step 4 of R145: the settings of OLC_CFG. -/
def olcShadows (s : State) : State :=
  modOlc (fun o => { o with maxUsAct := o.maxUsSh, keyReqAct := o.keyReqSh, waitAct := o.waitSh }) s

/-- Entry into SHUTDOWN discards every staged set and ends a store write (R193, R206). -/
def olcShutdown (s : State) : State :=
  let s := modOlc (fun o => { o with accepting := false }) s
  if s.olc.st = .idle || s.olc.rollback.isSome then s else olcFree s

/-! ### The commands of ring 4 (R193, R395) -/

/-- A command of ring 4 that is refused with a result code. -/
def olcNo (result : Nat) (s : State) : HostOut := refuse result (olcResult result s)

/-- OLC_BEGIN (R193): the header is read from host memory. -/
def execOlcBegin (r : Fin 8) (d : Descriptor) (s : State) : Host.Outcome State Fault Refusal :=
  .next (hostRow (HostCmd.tagged 0x41 (fun _ d => decide (fld d.arg0 0 32 ≤ 65536) && hostAligned d)
    (fun _ _ s => .dma s)) r d s)

/-- Why OLC_BEGIN is refused, 0 if it is not (R189, R193). -/
def beginDetail (s : State) (h : OlcHeader) : Nat :=
  if s.scn.mode = .start then Oc.mode
  else if s.olc.rollback.isSome then Oc.busy
  else if s.olc.st ≠ .idle then Oc.state
  else if !headerOk h then Oc.format
  else if (stagePlaces s h).isNone then Oc.noSpace else Oc.ok

/-- A ring 4 command whose host memory access has ended completes. -/
def olcEnds (ref : CmdRef) (result : Nat) (s : State) : State :=
  complete ref (if result = 0 then St.ok else St.refused) result (olcResult result s)

/-- OLC_BEGIN with its header read (R391 steps 9 and 10). -/
def olcBeginRead (ref : CmdRef) (d : Descriptor) (bytes : List Byte) (h : OlcHeader) (s : State) : State :=
  if crc32c (dmaBytes (fld d.arg0 0 32) bytes) ≠ w32 (fld d.arg0 32 32) then complete ref St.payloadCrc 0 s
  else match beginDetail s h with
    | 0 =>
      let places := (stagePlaces s h).getD []
      let s := { s with freeDraws := s.freeDraws + 16 }
      olcEnds ref Oc.ok (modOlc (fun o =>
        { o with st := .receiving, header := some h, recv := [], bytes := Vector.replicate 3 [], space := places })
        (seqTake ref.ring d s))
    | n => olcEnds ref n s

/-- The section, offset and length that OLC_DATA names. -/
def dataArgs (d : Descriptor) : Nat × Nat × Nat := (fld d.arg0 48 8, fld d.arg0 0 32, fld d.arg0 32 16 + 1)

/-- OLC_DATA (R193): a piece of a section is read from host memory. -/
def execOlcData (r : Fin 8) (d : Descriptor) (s : State) : Host.Outcome State Fault Refusal :=
  .next (hostRow (HostCmd.tagged 0x42 (fun s d =>
    let (n, ofs, len) := dataArgs d
    fld d.arg0 56 8 = 0 && hostAligned d && match s.olc.st, s.olc.header with
      | .receiving, some h => match h.sections[n]? with
        | some x => decide (ofs + len ≤ x.1)
        | none => false
      | _, _ => true) (fun _ _ s => .dma s)) r d s)

/-- OLC_DATA with its bytes read: written identically into the three banks (R193). -/
def olcDataRead (ref : CmdRef) (d : Descriptor) (bytes : List Byte) (s : State) : State :=
  let (n, ofs, len) := dataArgs d
  match s.olc.st, s.olc.header with
  | .receiving, some h =>
    let at_ := sectionAt h n + ofs
    let bs := dmaBytes len bytes
    olcEnds ref Oc.ok (modOlc (fun o =>
      { o with recv := o.recv ++ [(n, ofs, len)], bytes := vmap (fun m => putBytes m at_ bs) o.bytes })
      (seqTake ref.ring d s))
  | _, _ => olcEnds ref Oc.state s

/-- OLC_END (R193): the check starts; the command completes when it ends. -/
def execOlcEnd (r : Fin 8) (d : Descriptor) (s : State) : Host.Outcome State Fault Refusal :=
  .next (hostRow (HostCmd.tagged 0x43 zeroArgs (fun _ _ s =>
    if s.olc.st ≠ .receiving then olcNo Oc.state s
    else .held (modOlc (fun o => { o with st := .checking }) s))) r d s)

/-- The conditions of R201 for an activation whose carry-over takes `us`. -/
def activateDetail (s : State) (valid : Bool) (us : Nat) : Nat :=
  if s.scn.mode = .start then Oc.mode
  else if !valid then Oc.state
  else if !(s.scn.mode = .stop || s.scn.mode = .run || s.scn.mode = .hold) then Oc.mode
  else if s.olc.keyReqAct && !s.scn.commEn then Oc.key
  else if s.olc.maxUsAct.toNat < us then Oc.tooSlow else Oc.ok

/-- OLC_ACTIVATE (R201). -/
def execOlcActivate (r : Fin 8) (d : Descriptor) (s : State) : Host.Outcome State Fault Refusal :=
  .next (hostRow (HostCmd.tagged 0x44 zeroArgs (fun _ _ s =>
    match activateDetail s (s.olc.st = .staged) s.olc.planUs with
    | 0 => .held (modOlc (fun o => { o with st := .verifying, rolling := false }) s)
    | n => olcNo n s)) r d s)

/-- OLC_DISCARD (R193): the staged set is freed, and a command that waited for it ends refused. -/
def execOlcDiscard (r : Fin 8) (d : Descriptor) (s : State) : Host.Outcome State Fault Refusal :=
  .next (hostRow (HostCmd.tagged 0x45 zeroArgs (fun _ _ s =>
    match s.olc.st with
    | .idle => olcNo Oc.state s
    | .held => olcNo Oc.state s
    | st =>
      let op := verifyOp s
      let s := if st = .checking then olcDone 0x43 Oc.state s else if st = .verifying then olcDone op Oc.state s else s
      accept (olcResult Oc.ok (olcDiscard s)))) r d s)

/-- The plan of a rollback: from the running image to the rollback image (R205). -/
def rollbackPlan (s : State) : OlcPlan :=
  planOf (runImage s) (s.olc.rollback.getD Image.blank) (fun p => match s.olc.header with
    | some h => olcHas { s with olc := { s.olc with rolling := true } } h p
    | none => false)

/-- OLC_ROLLBACK (R205). -/
def execOlcRollback (r : Fin 8) (d : Descriptor) (s : State) : Host.Outcome State Fault Refusal :=
  .next (hostRow (HostCmd.tagged 0x46 zeroArgs (fun _ _ s =>
    let plan := rollbackPlan s
    match activateDetail s (s.olc.st = .held && !s.olc.accepting) (min (planTime plan.bytes) 0xFFFF) with
    | 0 => .held (modOlc (fun o => { o with st := .verifying, rolling := true }) (showPlan plan s))
    | n => olcNo n s)) r d s)

/-- OLC_ACCEPT (R206): the program store is being written; the command completes when it holds the image. -/
def execOlcAccept (r : Fin 8) (d : Descriptor) (s : State) : Host.Outcome State Fault Refusal :=
  .next (hostRow (HostCmd.tagged 0x47 zeroArgs (fun _ _ s =>
    if s.olc.st ≠ .held || s.olc.accepting then olcNo Oc.state s
    else .held (modOlc (fun o => { o with accepting := true }) s))) r d s)

/-- OLC_STAT: the partitions of the set staged or held, the last result, the state (R210). -/
def olcStat (s : State) : Word :=
  let parts := fun (p : PartId) => match s.olc.header with
    | some h => b2n (h.has p)
    | none => 0
  let nvs := match s.olc.header with
    | some h => (fins 8).foldl (fun a k => a + 2 ^ k.val * b2n (h.hasNv k)) 0
    | none => 0
  w32 (0x200000 * nvs + (fins 5).foldl (fun a p => a + 0x10000 * 2 ^ p.val * parts p) 0 +
    256 * s.olc.result.toNat + s.olc.st.code)

/-- OLC_QUERY (R395): OLC_STAT, with the result of the command before, and the plan registers. Then RESULT is its own. -/
def execOlcQuery (r : Fin 8) (d : Descriptor) (s : State) : Host.Outcome State Fault Refusal :=
  .next (hostRow
    { op := 0x48, mine := fun _ => true, needsTag := fun _ _ => false, args := zeroArgs, present := fun _ _ => true,
      act := fun _ _ s => .done St.ok 0
        (BitVec.ofNat 64 ((olcStat s).toNat + 2 ^ 32 * s.olc.planBytes.toNat))
        (BitVec.ofNat 64 (s.olc.planUs + 0x10000 * forceLoss s + 2 ^ 32 * s.olc.planMatch.toNat)) (olcResult Oc.ok s) } r d s)

end Sys2Proof.Machine
end

