-- ==== Sys2Proof/Machine/Scrub.lean ====
section
/-!
DEFINITION. Background scrubbing (R78 to R81, R191): what the judgement of one word does, by what the word belongs to.
-/
namespace Sys2Proof.Machine

open Sys2Proof

/-- Whether the scrubber may judge the system area now: not during Gather and Agree (R80). -/
def sysScrub (s : State) : Bool := s.scn.agreed || !s.scn.mode.bounded

/-- Whether the scrubber may judge a word of a partition's region now (R80): no Heel is on it, and its commit of kind 0x4
is released in this cycle, or its triad is idle, stopped or unleashed. -/
def partScrub (s : State) (p : PartId) : Bool := match triadOf s p with
  | some t =>
    let x := s.triads[t]
    x.heel.st = .none && (s.parts[p].released || x.mode = .idle || x.mode = .stopped || x.mode = .unleashed)
  | none => true

/-- Whether the staging space in use holds a bank offset (R191). -/
def inSpace (s : State) (ofs : Nat) : Bool := s.olc.space.any (fun e =>
  decide (e.2.1 * 1048576 ≤ ofs ∧ ofs < (e.2.1 + e.2.2) * 1048576))

/-- The cores whose quota windows hold a bank offset, each with its bank (R91). -/
def quotasAt (s : State) (ofs : Nat) : List (CoreId × Lane) := (fins 16).filterMap (fun c =>
  let w := s.tri.nvqAct[c]
  if fld w 0 12 * 1048576 ≤ ofs ∧ ofs < (fld w 0 12 + fld w 16 12) * 1048576 then
    (quotaBank w).map (fun b => (c, b)) else none)

/-- A repair by the scrubber: TRI_SCRUB_FIX and SCRUB_REPAIR (R79). -/
def scrubFixed (who : Byte) (b : Lane) (core : Nat) (s : State) : State :=
  nvEventFor Ev.scrubRepair who (w32 (256 * (b.val + 1) + core)) 0#32
    { s with tri := { s.tri with scrubFix := satInc s.tri.scrubFix } }

/-- The core in a lane of a triad, as ARG_A counts it. -/
def laneCore (s : State) (t : TriadId) (l : Lane) : Nat := match s.triads[t].cores[l] with
  | some c => c.val
  | none => 0

/-- A 64-bit word of a partition's region judged, and the verdict acted on (R78, R79). -/
def scrubPart (p : PartId) (w : Nat) (s : State) : State :=
  let s := softDone (8 * w) (8 * w + 8) s
  let fix := fun b => repairRegion p b w
  match judgeRegion s p w, triadOf s p with
  | .fine, _ => s
  | .repair b, some t => scrubFixed (whoOf t) b (laneCore s t b) (fix b s)
  | .repair b, none => scrubFixed 0xFF#8 b 0 (fix b s)
  | .noMajority, some t => vitalStopsTriad Ev.noCopyMajority (triArg s t) 0#32 t s
  | .noMajority, none => s

/-- What a word without a majority brings outside the regions. -/
inductive Lost where
  | fatal | set | nothing
  deriving DecidableEq, Repr

/-- The verdict on a word of the system area (R79), of a staged set or rollback region (R191), or of none of these. -/
def scrubOther (lost : Lost) (verdict : Judged) (fix : Lane → State → State) (s : State) : State :=
  match verdict with
  | .fine => s
  | .repair b => scrubFixed 0xFF#8 b 0 (fix b s)
  | .noMajority => match lost with
    | .fatal => fatalEvent Ev.sysCopyNoMajority 0#32 0#32 s
    | .set => olcFault s
    | .nothing => s

/-- Every non-vital partition of a core stops (R81). A core that is not unleashed runs none of them, and what it does goes
on. -/
def stopNvCore (c : CoreId) (s : State) : State :=
  let s := forEach (fins 8) (fun k s => match nvDesc s k with
    | some d => if d.core = c then canWithdraw (· = .nonvital k) (modNv k (fun x => { x with st := .stopped }) s) else s
    | none => s) s
  if s.cores[c].st = .unleashed then modCore c (fun k => { k.halt with nv := none, nvIdle := [] }) s else s

/-- A word of a quota: its ECC only (R81). -/
def scrubQuota (c : CoreId) (b : Lane) (w : Nat) (s : State) : State :=
  if intact s b (8 * w) then s
  else nvEvent Ev.nvqEcc (w32 (256 * (b.val + 1) + c.val)) 0#32 (stopNvCore c s)

/-! ### The system area and the staged sections -/

/-- What a bank holds at a place of the system area or of a staged set: words, and by them everything that they spell. -/
def sysVal (s : State) (l : Lane) : ScrubTarget → List Word
  | .table i => [s.svy.table[l].getD (2 * i) 0#32, s.svy.table[l].getD (2 * i + 1) 0#32]
  | .staged ofs => [w32 (ofLe (getBytes s.olc.bytes[l] (ofs / 8 * 8) 4)), w32 (ofLe (getBytes s.olc.bytes[l] (ofs / 8 * 8 + 4) 4))]
  | .image w k => [SMap.get 0#32 (match w with
      | 0 => s.pim.img[l].cur
      | 1 => s.pim.img[l].cpy
      | 2 => s.pim.img[l].qual) k]
  | _ => []

/-- A list with the element at a place replaced, removed if there is none, or added at its end. -/
def putAt {α : Type} (i : Nat) (x : Option α) (l : List α) : List α :=
  match x with
  | some v => if i < l.length then l.set i v else l ++ [v]
  | none => l.eraseIdx i

/-- A record of one bank's image tables rewritten from another bank's. -/
def imageFix (b : Lane) (f : Image → Image → Image) (s : State) : State :=
  match s.olc.images[otherLane b], s.olc.images[b] with
  | some o, some x => modOlc (fun c => { c with images := vset c.images b (some (f o x)) }) s
  | o, _ => modOlc (fun c => { c with images := vset c.images b o }) s

/-- Whether a signal has such a place in the system area (R164): an output signal its copy taken at B, a boundary signal
both its copies, an input or host request signal its value and its quality word. -/
def sysPlace (which : Fin 3) (k : Nat) : Bool := match which, (Sig.ofKey k).area with
  | 0, .input => true
  | 0, .hostReq => true
  | 0, .boundary => true
  | 1, .output => true
  | 1, .boundary => true
  | 2, .input => true
  | 2, .hostReq => true
  | _, _ => false

/-- One bank's copy of such a place rewritten from another's. -/
def sysFix (t : ScrubTarget) (b : Lane) (s : State) : State :=
  let ws := sysVal s (otherLane b) t
  let s := { s with sysEcc := vupd s.sysEcc b (fun l => l.filter (· ≠ t)) }
  match t with
  | .table i => { s with svy := { s.svy with
      table := vupd s.svy.table b (fun v => (v.set (2 * i) (ws.getD 0 0#32)).set (2 * i + 1) (ws.getD 1 0#32)) } }
  | .staged ofs => modOlc (fun o => { o with
      bytes := vupd o.bytes b (fun m => putBytes m (ofs / 8 * 8) (ws.flatMap (fun w => leBytes 4 w.toNat))) }) s
  | .image w k => modImg b (fun m =>
      let v := ws.getD 0 0#32
      match w with
      | 0 => { m with cur := SMap.set 0#32 m.cur k v }
      | 1 => { m with cpy := SMap.set 0#32 m.cpy k v }
      | 2 => { m with qual := SMap.set 0#32 m.qual k v }) s
  | .force i => { s with pim := { s.pim with forceTab := vupd s.pim.forceTab b (putAt i s.pim.forceTab[otherLane b][i]?) } }
  | .gaz i => imageFix b (fun o x => { x with gaz := putAt i o.gaz[i]? x.gaz }) s
  | .owner i => imageFix b (fun o x => { x with owners := putAt i o.owners[i]? x.owners }) s
  | .part p => imageFix b (fun o x => { x with parts := vset x.parts p o.parts[p] }) s
  | .nonvital k => imageFix b (fun o x => { x with nvs := vset x.nvs k o.nvs[k] }) s
  | _ => s

/-- The verdict of R78 on such a place. -/
def sysJudge (s : State) (t : ScrubTarget) : Judged :=
  let ok := fun (l : Lane) => !s.sysEcc[l].contains t
  let tab := fun {α : Type} [DecidableEq α] (f : Image → Option α) => judge3 (ok 0) (ok 1) (ok 2)
    (s.olc.images[(0 : Lane)].bind f) (s.olc.images[(1 : Lane)].bind f) (s.olc.images[(2 : Lane)].bind f)
  match t with
  | .force i => judge3 (ok 0) (ok 1) (ok 2) s.pim.forceTab[(0 : Lane)][i]? s.pim.forceTab[(1 : Lane)][i]?
      s.pim.forceTab[(2 : Lane)][i]?
  | .gaz i => tab (fun x => x.gaz[i]?)
  | .owner i => tab (fun x => x.owners[i]?)
  | .part p => tab (fun x => x.parts[p])
  | .nonvital k => tab (fun x => x.nvs[k])
  | _ => judge3 (ok 0) (ok 1) (ok 2) (sysVal s 0 t) (sysVal s 1 t) (sysVal s 2 t)

/-- Such a place judged; a corrected single-bit error is written back (R78). -/
def scrubSys (lost : Lost) (t : ScrubTarget) (s : State) : State :=
  scrubOther lost (sysJudge s t) (sysFix t) { s with sysSoft := vmap (fun l => l.filter (· ≠ t)) s.sysSoft }

/-- A 64-bit word of the banks judged, by what it belongs to (R80, R81, R191). -/
def scrubBank (ofs : Nat) (s : State) : State :=
  let w := ofs / 8
  let soft := softDone (8 * w) (8 * w + 8)
  let other := fun lost s => scrubOther lost (judgeWord s w) (repairWord · w) (soft s)
  if 0x100000000 ≤ ofs then s
  else if sysArea ≤ ofs then (if sysScrub s then other .fatal s else s)
  else match partAt s ofs, quotasAt s ofs with
  | some p, _ => if partScrub s p then scrubPart p w s else s
  | none, [] => other (if inSpace s ofs then .set else .nothing) s
  | none, qs => forEach qs (fun q => scrubQuota q.1 q.2 w) (soft s)

/-- SCRUB_JUDGE (R80). A signal of a region's slice is judged with the word of the region in which it stands; a signal that
has no such place is no word to judge. -/
def execScrubJudge (w : ScrubTarget) (s : State) : Host.Outcome State Fault Refusal :=
  .next (match w with
    | .bank ofs => scrubBank ofs s
    | .slice p k => if inSlice s p k && partScrub s p then scrubPart p (sliceOfs s p k / 8) s else s
    | .staged _ => scrubSys .set w s
    | .image i k => if sysPlace i k && sysScrub s then scrubSys .fatal w s else s
    | _ => if sysScrub s then scrubSys .fatal w s else s)

/-- The rounds of the scrubber: a round lasts its period, and the next one takes the active PERIOD (R80, R100). That a
round is counted at a boundary is a choice of the model (log entry 98). -/
def scrubTurn (s : State) : State :=
  let t := s.tri
  let len := t.scrubPeriod.toNat * hourT
  if len = 0 || decide (s.tb < t.scrubFrom + len) then s
  else { s with tri := { t with scrubRounds := satInc t.scrubRounds, scrubFrom := t.scrubFrom + len,
                                scrubPeriod := t.scrubAct } }

end Sys2Proof.Machine
end

