-- ==== Sys2Proof/Machine/Logs.lean ====
section
/-!
DEFINITION. The delivery of events (R466 to R468) and the Logbook: updates, history entries, samples, and the judging
of the copies at START (R498 to R509).
-/
namespace Sys2Proof.Machine

open Sys2Proof

/-! ### Event delivery -/

/-- Whether ERR_NV_MASK keeps an event from ring 2: NONVITAL, maskable, and its block masked (R465, R468). -/
def evMasked (s : State) (e : QEv) : Bool :=
  e.cls = .nonvital && e.code ≠ Ev.clkXoFail && bit s.err.mask (e.code / 256)

/-- The event entry (R385, R471). -/
def evEntry (e : QEv) : CqEntry :=
  { typ := 3, phase := false, lostBefore := false, id := BitVec.ofNat 16 e.code, a := BitVec.ofNat 8 e.cls.code,
    b := e.who, c := 0#16, cyc := e.cyc, data0 := BitVec.ofNat 64 e.tb,
    data1 := BitVec.ofNat 64 (e.argA.toNat + 2 ^ 32 * e.argB.toNat) }

/-- An event on ring 2: an entry that is written after a discard of R467 carries LOST_BEFORE. -/
def evPost (e : QEv) (s : State) : State :=
  let x := s.hst.rings[(2 : Fin 8)]
  if evMasked s e || !x.en || hstIdle s then s
  else if cqFull x then cqPost 2 (evEntry e) s
  else
    let flag := s.err.lostFlag
    let s := { s with err := { s.err with lostFlag := false } }
    cqPost 2 (evEntry e) (modRing 2 (fun r => { r with lostFlag := r.lostFlag || flag }) s)

/-- An event is passed to ERR_LAST and ring 2. -/
def evPass (e : QEv) (s : State) : State :=
  evPost e { s with err := { s.err with lastCls := BitVec.ofNat 2 e.cls.code, lastCode := BitVec.ofNat 16 e.code } }

/-- NV_EVENTS_LOST is queued once the NONVITAL queue has room after a discard (R467). -/
def tellLost (s : State) : State :=
  if 0 < s.err.lostPend && decide (s.err.nq.length < 64) then
    nvEvent Ev.nvEventsLost (w32 s.err.lostPend) 0#32 { s with err := { s.err with lostPend := 0 } }
  else s

/-- EVENT_DELIVERY (R466): the oldest entry of the VITAL queue, else of the NONVITAL queue. -/
def execEventDelivery (s : State) : Host.Outcome State Fault Refusal :=
  .next (match s.err.vq, s.err.nq with
    | e :: rest, _ => evPass e { s with err := { s.err with vq := rest } }
    | [], e :: rest => evPass e (tellLost { s with err := { s.err with nq := rest } })
    | [], [] => s)

/-! ### The Logbook -/

def modLog (f : Log → Log) (s : State) : State := { s with log := f s.log }

/-- The copy that an update starts from: the one that the last good update left chosen, however many updates have failed
since. -/
def logBase (s : State) : SMap Byte := s.nv.logs[s.log.chosen]

/-- An update of both copies (R499). `ok0` and `ok1` are the verdicts of the read-back verify. A copy that fails keeps
what it held, and the next update writes it again; if both fail, the counts stay in the volatile counters
(log entry 26). -/
def logUpdate (ok0 ok1 : Bool) (s : State) : State :=
  let base := logBase s
  let poh := (pohNow s).toNat
  let s := logAdd 0x40 (poh - logWord base 8) s
  let m := updateCopy s.log.vol ((logWord base 4 + 1) % 2 ^ 32) poh base
  let logs := #v[if ok0 then m else s.nv.logs[0], if ok1 then m else s.nv.logs[1]]
  let s := { s with nv := { s.nv with logs := logs } }
  let s := if ok0 || ok1 then
      modLog (fun l => { l with vol := [], seq := w32 (logWord m 4), chosen := if ok0 then 0 else 1 }) s
    else { s with log := { s.log with vol := SMap.set 0 s.log.vol 0x40 0 } }
  let s := modLog (fun l => { l with wfail := !(ok0 && ok1) }) s
  let s := if ok0 then s else nvEvent Ev.logWriteFail 0#32 0#32 s
  if ok1 then s else nvEvent Ev.logWriteFail 0#32 0#32 s

/-- LOG_UPDATE (R499): an hour of power-on time has passed. -/
def execLogUpdate (ok0 ok1 : Bool) (s : State) : Host.Outcome State Fault Refusal :=
  .next (
    if s.bst.ph = .off then s
    else
      let s := advanceTo (upTb s (s.log.hourFrom + hourT)) s
      logUpdate ok0 ok1 (modLog (fun l => { l with hourFrom := l.hourFrom + hourT }) s))

/-- LOG_HISTORY_WRITE (R506): the oldest failure still to be written, into both copies. -/
def execLogHistoryWrite (s : State) : Host.Outcome State Fault Refusal :=
  .next (match s.log.hist with
    | [] => s
    | h :: rest =>
      let put := fun (m : SMap Byte) => sealLog (logWord m 4) (logWord m 8) (addHist h m)
      let s := { s with nv := { s.nv with logs := vmap put s.nv.logs } }
      modLog (fun l => { l with hist := rest }) s)

/-! ### Judging at START (R500) -/

/-- A copy that holds nothing. -/
def logZero : SMap Byte := sealLog 0 0 []

/-- A section of the chosen copy checked, repaired from the other, or lost. -/
def judgeSection (other : SMap Byte) (i : Nat) (x : SMap Byte × State) : SMap Byte × State :=
  let (m, s) := x
  let p := logSections.getD i (0, 0)
  if sectionOk m i then (m, s)
  else if logIntact other && sectionOk other i then
    (putBytes m p.1 (getBytes other p.1 p.2), nvEvent Ev.logSectionRepaired (w32 (i + 1)) 0#32 s)
  else
    (clearRange m p.1 (p.1 + p.2),
     nvEvent Ev.logSectionLost (w32 (i + 1)) 0#32 (modLog (fun l => { l with lost := bitSet l.lost i true }) s))

/-- The copies are judged and rewritten (R500). -/
def logJudge (s : State) : State :=
  let a := s.nv.logs[0]
  let b := s.nv.logs[1]
  let (m, s) :=
    if !logIntact a && !logIntact b then
      (logZero, nvEvent Ev.logBad 0#32 0#32 (modLog (fun l => { l with bad := true }) s))
    else
      let second := logIntact b && (!logIntact a || decide (logWord a 4 < logWord b 4))
      let (m, other) := if second then (b, a) else (a, b)
      forEach (List.range 8) (judgeSection other) (m, s)
  let m := sealLog (logWord m 4) (logWord m 8) m
  let s := { s with nv := { s.nv with logs := Vector.replicate 2 m } }
  modLog (fun l => { l with chosen := 0, seq := w32 (logWord m 4), poh := w32 (logWord m 8) }) s

/-! ### Samples (R504) -/

/-- A bin number within 0 to 31. -/
def binOf (b : Int) : Nat := if b < 0 then 0 else min b.toNat 31

/-- A count in bin `b` of the histogram at an offset. -/
def logBin (ofs b : Nat) : State → State := logAdd (ofs + 8 * b) 1

/-- The bin of a ring-speed index. -/
def rsiBin (idx : Nat) : Nat := binOf ((16 * idx / Config.rsiGuar.toNat : Nat) - (8 : Int))

/-- The bin of a temperature in units of 0.5 °C. -/
def tempBin (t : BitVec 16) : Nat := binOf ((t.toInt + 90) / 10)

/-- The lowest ring-speed index of the three lanes. -/
def rsiLow (s : State) : Nat := min s.clk.rsi[(0 : Fin 3)].toNat (min s.clk.rsi[(1 : Fin 3)].toNat s.clk.rsi[(2 : Fin 3)].toNat)

/-- HISTOGRAM_SAMPLE (R504): once per second the ring speed and the trim step of R438; with a temperature, once per
minute, that too, and the minute counters. -/
def execHistogramSample (temp : Option (BitVec 16)) (s : State) : Host.Outcome State Fault Refusal :=
  .next (match temp with
    | none =>
      let s := advanceTo (upTb s (s.log.secFrom + secT)) s
      let s := modLog (fun l => { l with secFrom := l.secFrom + secT }) s
      trimStep (logBin 0x600 (rsiBin (rsiLow s)) s)
    | some t =>
      let s := advanceTo (upTb s (s.log.minFrom + minT)) s
      let s := modLog (fun l => { l with minFrom := l.minFrom + minT }) s
      let s := logBin 0x700 (tempBin t) { s with bst := { s.bst with temp := t } }
      let s := if s.scn.mode = .run then logModule 3 s else s
      forEach (fins 16) (fun c s => if s.cores[c].st = .lane then logCore c 6 s else s) s)

end Sys2Proof.Machine
end

