-- ==== Sys2Proof/Machine/HostDma.lean ====
section
/-!
DEFINITION. The end of an access to host memory that a command has asked for (R391 step 9, R392, R395).
-/
namespace Sys2Proof.Machine

open Sys2Proof

/-- The command of a ring whose host memory access runs, by its SQ index. -/
def dmaCmd (s : State) (r : Fin 8) (sqIdx : Nat) : Option Cmd :=
  s.hst.rings[r].outs.find? (fun c => c.dma && c.idx = sqIdx)

/-- What a successful access brings, by the opcode of its command. -/
def dmaDone (ref : CmdRef) (d : Descriptor) (bytes : List Byte) (hdr : OlcHeader) (s : State) : State :=
  match d.opcode.toNat with
  | 0x08 => keyStoreRead ref d bytes s
  | 0x31 => logReadEnd ref d s
  | 0x41 => olcBeginRead ref d bytes hdr s
  | 0x42 => olcDataRead ref d bytes s
  | 0x53 => forceListEnd ref d s
  | _ => s

/-- HOST_DMA_END (R391): a failed access completes its command with DMA_ERROR and raises HST_DMA_ERROR. The header of a
change set, whose layout the spec does not give (R187), comes with the command in `hdr`. -/
def execHostDmaEnd (r : Fin 8) (sqIdx : Nat) (ok : Bool) (bytes : List Byte) (hdr : OlcHeader) (s : State) :
    Host.Outcome State Fault Refusal :=
  .next (match dmaCmd s r sqIdx with
    | none => s
    | some c =>
      let ref : CmdRef := ⟨r, c.no⟩
      let s := modRing r (fun x => { x with outs := x.outs.map (fun y => if y.no = c.no then { y with dma := false } else y) }) s
      if ok then dmaDone ref c.desc bytes hdr s
      else complete ref St.dmaError 0 (nvEvent Ev.hstDmaError (w32 r.val) (w32 sqIdx) s))

end Sys2Proof.Machine
end

