-- ==== Sys2Proof/Machine/RegRead.lean ====
section
/-!
DEFINITION. What a register read returns (R3, R6 to R11, R59 to R514): the register map of R514, block by block, as a
view of the state. A read has no effect but ABSENT_UNIT, which is a command of its own.
-/
namespace Sys2Proof.Machine

open Sys2Proof

/-! ### Putting words together -/

/-- The place of an offset in an array of `n` registers. -/
def arr (base stride n ofs : Nat) : Option (Fin n) :=
  if h : base ≤ ofs ∧ (ofs - base) % stride = 0 ∧ (ofs - base) / stride < n then some ⟨(ofs - base) / stride, h.2.2⟩
  else none

/-- One register. -/
def rd1 (at_ : Nat) (w : Word) (ofs : Nat) : Option Word := if ofs = at_ then some w else none

/-- An array of registers. -/
def rdN (base stride n : Nat) (f : Fin n → Word) (ofs : Nat) : Option Word := (arr base stride n ofs).map f

/-- Registers at consecutive offsets. -/
def rdSeq (base : Nat) (ws : List Word) (ofs : Nat) : Option Word :=
  if base ≤ ofs ∧ (ofs - base) % 4 = 0 then ws[(ofs - base) / 4]? else none

/-- The register that an offset names among several groups; 0 where none stands (R511). -/
def rdAny (l : List (Nat → Option Word)) (ofs : Nat) : Word := (l.findSome? (fun f => f ofs)).getD 0#32

/-- Bits from `lo` of a list of Booleans, as a word. -/
def bitsAt (lo : Nat) (l : List Bool) : Word := w32 (((l.drop lo).take 32).foldr (fun b a => b2n b + 2 * a) 0)

/-- The low and the high half of a 64-bit value. -/
def lo32 (x : Dword) : Word := x.setWidth 32
def hi32 (x : Dword) : Word := (x >>> 32).setWidth 32

/-- A lane as 1 to 3, 0 for none. -/
def laneCode (l : Option Lane) : Nat := match l with
  | some l => l.val + 1
  | none => 0

/-- A register of a triad or partition that the variant lacks reads 0. -/
def ofTriad (s : State) (n : Fin 5) (w : Word) : Word := if n.val < s.variant.triads then w else 0#32

def CoreSt.code : CoreSt → Nat
  | .absent => 0
  | .lane => 1
  | .odd => 2
  | .kennel => 3
  | .reserve => 4
  | .unleashed => 5

def TriMode.code : TriMode → Nat
  | .notFormed => 0
  | .triad => 1
  | .pair => 2
  | .stopped => 3
  | .unleashed => 4
  | .idle => 5

def HeelSt.code : HeelSt → Nat
  | .none => 0
  | .full => 1
  | .catchup => 2
  | .waitReserve => 3
  | .waitEngine => 4

def Ken.code : Ken → Nat
  | .none => 0
  | .test => 1
  | .quick => 1
  | .failed => 2
  | .waitInvalid => 3

def PartSt.code : PartSt → Nat
  | .none => 0
  | .ready => 1
  | .solving => 2
  | .ended => 3
  | .stopped => 4

def NvSt.code : NvSt → Nat
  | .none => 0
  | .waiting => 1
  | .running => 2
  | .done => 3
  | .cut => 4
  | .stopped => 5

def UbSt.code : UbSt → Nat
  | .off => 0
  | .listening => 1
  | .coldstart => 2
  | .keeper => 3
  | .foreign => 4
  | .standby => 5

def CanSt.code : CanSt → Nat
  | .off => 0
  | .integrating => 1
  | .active => 2
  | .passive => 3
  | .busOff => 4
  | .listen => 5

def RingSt.code : RingSt → Nat
  | .disabled => 0
  | .running => 1
  | .error => 2

def RackSt.code : RackSt → Nat
  | .absent => 0
  | .present => 1
  | .refused => 2
  | .admitted => 3
  | .stale => 4

def Role.code : Role → Nat
  | .single => 0
  | .active => 1
  | .standby => 2

/-! ### ID, CLK, TRI -/

/-- The PCI Express device ID (R513). -/
def Variant.device : Variant → Nat
  | .trv16 => 0x160
  | .trv16b => 0x161
  | .trv10 => 0x100

/-- The ID block (R513). -/
def regId (s : State) : Nat → Word := rdAny
  [rdSeq 0 [pack [(16, s.variant.device), (0, 0x1D7F)], Config.hwRev.setWidth 32, s.variant.caps, lo32 Config.serial,
            hi32 Config.serial, Config.firmware]]

/-- CLK_STAT (R447). -/
def clkStat (c : Clk) : Word := bitsAt 0
  [c.srcIo, c.xoStable, c.xoInRange, c.ioOk, c.lockT, c.lockS, c.lockC, c.ppsOk, c.refLock, c.escape]

/-- The CLK block (R447). -/
def regClk (s : State) : Nat → Word :=
  let c := s.clk
  rdAny
  [rdSeq 0 [clkStat c, 0#32, pack [(16, c.fails.toNat), (0, c.monCount.toNat)],
      pack [(24, c.retWinAct.toNat), (17, b2n c.steerAct), (16, b2n c.autoAct), (8, c.retWinSh.toNat),
            (1, b2n c.steerSh), (0, b2n c.autoSh)],
      c.sscSh, c.sscAct, c.divSh, c.divAct, c.gateReq.setWidth 32,
      pack [(16, c.gateForced.toNat), (8, c.gatePend.toNat), (0, c.gateClosed.toNat)],
      pack [(16, c.trim.toNat), (0, c.ofs.toNat)], lo32 c.pps, hi32 c.pps],
   rdN 0x34 4 3 (fun l => pack [(16, c.rsiMin[l].toNat), (0, c.rsi[l].toNat)]),
   rdSeq 0x40 [pack [(16, Config.rsiWinMax), (0, Config.rsiWinMin.toNat)], w32 Config.rsiGuar.toNat]]

/-- TRI_STATE_n (R61). -/
def triState (x : Triad) : Word :=
  pack [(16, x.lastEvt), (8, match x.part with
    | some p => p.val
    | none => 7), (4, laneCode x.odd), (0, x.mode.code)]

/-- TRI_LANES_n (R62). -/
def triLanes (x : Triad) : Word :=
  pack ((fins 3).map (fun l => (8 * l.val, match x.cores[l] with
    | some c => 0x80 + c.val
    | none => 0)))

/-- The capture set of a triad from its base (R68). -/
def triCap (c : Capture) : List Word :=
  [pack [(31, b2n c.valid), (12, c.present.toNat), (8, c.kind.toNat), (0, c.event.toNat)], c.seq, c.cyc, c.addr] ++
  (fins 3).flatMap (fun l => [lo32 c.sigs[l], hi32 c.sigs[l]]) ++ c.arrs.toList

/-- The trap capture set of a triad from its base (R136). -/
def trapCap (c : TrapCap) : List Word :=
  [pack [(31, b2n c.valid), (8, c.lanes.toNat), (0, c.code.toNat)], c.pc.setWidth 32, c.addr, c.cyc]

/-- TRI_HEEL_REM_n. -/
def heelRem (h : Heel) : Word := pack [(20, (satOf 12 h.unres.length).toNat), (0, h.dirty.length % 2 ^ 20)]

/-- The percentage of the scrub round done (TRI_SCRUB_ST): of its time, a choice of the model (log entry 98). -/
def scrubDone (s : State) : Nat := min 100 ((s.tb - s.tri.scrubFrom) * 100 / (s.tri.scrubPeriod.toNat * hourT))

/-- TRI_CORE_ST_0 and TRI_CORE_ST_1 (R63): `n` cores from core `lo`. -/
def coreStates (s : State) (lo n : Nat) : Word :=
  pack (((fins 16).filter (fun c => decide (lo ≤ c.val ∧ c.val < lo + n))).map (fun c =>
    (3 * (c.val - lo), s.cores[c].st.code)))

/-- The voting part of the TRI block (R59 to R68). -/
def regTriVote (s : State) : List (Nat → Option Word) :=
  let t := s.tri
  [rd1 0 (pack [(24, t.lagWarnAct.toNat), (16, t.lagWinAct.toNat), (8, t.lagWarnSh.toNat), (0, t.lagWinSh.toNat)]),
   rdN 0x10 4 5 (fun n => ofTriad s n (triState s.triads[n])),
   rdN 0x30 4 5 (fun n => ofTriad s n (triLanes s.triads[n])),
   rdSeq 0x50 [coreStates s 0 10, coreStates s 10 6],
   rdN 0x60 4 5 (fun n => ofTriad s n s.triads[n].commitsLast),
   rdN 0x80 4 5 (fun n => ofTriad s n (pack [(16, s.triads[n].lagLast.1.toNat),
     (0, (satOf 16 s.triads[n].lagLast.2).toNat)])),
   rdSeq 0xD0 [bitsAt 0 (s.dio.outs.toList.map (·.code)), t.dynFault.setWidth 32],
   (fun ofs => if ofs < 0x100 ∨ 0x240 ≤ ofs then none else (arr 0 0x40 5 ((ofs - 0x100) / 0x40 * 0x40)).bind (fun n =>
     rdSeq 0 ((triCap s.triads[n].cap).map (ofTriad s n)) ((ofs - 0x100) % 0x40)))]

/-- The Heel, Kennel, reserve and split part of the TRI block (R97 to R100). -/
def regTriHeel (s : State) : List (Nat → Option Word) :=
  let t := s.tri
  [rdSeq 0x240 [pack [(16, t.pairLimitSh.toNat), (0, t.finalPagesSh.toNat)],
                pack [(16, t.pairLimitAct.toNat), (0, t.finalPagesAct.toNat)]],
   rdN 0x250 4 5 (fun n => ofTriad s n (pack [(24, s.triads[n].heel.pass), (16, laneCode s.triads[n].heel.bank),
     (0, s.triads[n].heel.st.code)])),
   rdN 0x270 4 5 (fun n => ofTriad s n (heelRem s.triads[n].heel)),
   rdN 0x290 4 5 (fun n => ofTriad s n (w32 s.triads[n].heel.fix)),
   rd1 0x2B0 (pack [(8, t.retestAct.toNat), (0, t.retestSh.toNat)]),
   rd1 0x2C0 (pack ((fins 16).map (fun c => (2 * c.val, s.cores[c].ken.code)))),
   rd1 0x2D0 (pack [(16, t.unleashAct.toNat), (0, t.unleashSh.toNat)]),
   rd1 0x2E0 (pack [(31, b2n t.hoValid), (8, t.hoStatus.toNat), (4, t.hoTarget.toNat), (0, t.hoPart.toNat)]),
   rdN 0x300 4 16 (fun k => t.nvqSh[k]),
   rdN 0x340 4 16 (fun k => t.nvqAct[k]),
   rdN 0x380 4 16 (fun k => pack [(31, b2n t.nvLimited[k]), (0, t.nvPages[k].length)]),
   rdSeq 0x3C0 [pack [(8, t.scrubAct.toNat), (0, t.scrubSh.toNat)],
                pack [(8, t.scrubRounds.toNat), (0, scrubDone s)], t.scrubFix]]

/-- The trap captures of the TRI block (R136). -/
def regTriTrap (s : State) : List (Nat → Option Word) :=
  let t := s.tri
  [(fun ofs => if ofs < 0x400 ∨ 0x450 ≤ ofs then none else (arr 0 0x10 5 ((ofs - 0x400) / 0x10 * 0x10)).bind (fun n =>
     rdSeq 0 ((trapCap s.triads[n].trap).map (ofTriad s n)) ((ofs - 0x400) % 0x10))),
   rdSeq 0x450 [pack [(31, b2n t.nvTrapValid), (16, t.nvTrapCore.toNat), (8, t.nvTrapPart.toNat),
     (0, t.nvTrapCode.toNat)], t.nvTrapPc.setWidth 32, t.nvTrapAddr, t.nvTrapCyc]]

/-- The TRI block. -/
def regTri (s : State) : Nat → Word := rdAny (regTriVote s ++ regTriHeel s ++ regTriTrap s)

/-! ### SCN, PIM, OLC, SVY -/

/-- SCN_STAT.PHASE (R162): the boundary actions last until B + BND_END. -/
def scnPhase (s : State) : BitVec 2 :=
  if s.scn.phase = 1#2 && decide (s.tb < s.scn.bTb + s.scn.bndEnd.toNat * usT) then 0#2 else s.scn.phase

/-- The SCN block (R162, R163). -/
def regScn (s : State) : Nat → Word :=
  let c := s.scn
  rdAny
  [rdSeq 0 [pack [(16, c.cause), (8, match c.prev with
        | some m => m.code
        | none => 0), (0, c.mode.code)],
      pack [(29, b2n c.safeExitAct), (28, b2n c.safeExitSh), (14, c.tcycAct.toNat), (0, c.tcycSh.toNat)],
      b2w s.nv.autorun, pack [(4, b2n c.commEn), (3, b2n c.stepPending),
        (0, (scnPhase s).toNat)],
      w32 c.cycle, w32 (c.cycle / 2 ^ 32 % 65536), w32 c.bTb, w32 (c.bTb / 2 ^ 32),
      pack [(16, c.bndEnd.toNat), (0, c.agreeUs.toNat)],
      pack [(31, b2n c.ovrValid), (8, c.ovrPart.toNat), (4, c.ovrKind.toNat), (0, b2n c.ovrIso)], c.ovrCyc],
   rdN 0x40 4 5 (fun n => ofTriad s n (s.parts[n].budgetSh.setWidth 32)),
   rdN 0x60 4 5 (fun n => ofTriad s n (s.parts[n].budgetAct.setWidth 32)),
   rdN 0x80 4 5 (fun n => ofTriad s n (pack [(12, s.parts[n].last), (3, b2n s.parts[n].isolated),
     (0, s.parts[n].st.code)])),
   rdN 0xA0 4 5 (fun n => ofTriad s n (w32 s.parts[n].solveMax)),
   rdN 0xC0 4 8 (fun k => s.nvs[k].budgetSh.setWidth 32),
   rdN 0xE0 4 8 (fun k => s.nvs[k].budgetAct.setWidth 32),
   rdN 0x100 4 8 (fun k => pack [(12, s.nvs[k].last), (4, match nvDesc s k with
     | some d => d.core.val
     | none => 0), (0, s.nvs[k].st.code)])]

/-- The PIM block (R184, R185). -/
def regPim (s : State) : Nat → Word :=
  let p := s.pim
  rdAny
  [rdSeq 0 [pack [(16, (satOf 16 p.substCnt).toNat), (0, p.forces.length)],
      pack [(31, b2n p.capValid), (24, p.capReason.toNat), (23, b2n p.capSig.word), (0, p.capSig.addr)],
      pack [(16, p.tmoAct.toNat), (0, p.tmoSh.toNat)]],
   rdN 0x10 4 5 (fun n => ofTriad s n (w32 s.parts[n].ovlLast))]

/-- MiB of staging space in use. -/
def olcMib (s : State) : Nat := totalMib (s.olc.space.map (fun e => e.2.2))

/-- The OLC block (R210, R211). -/
def regOlc (s : State) : Nat → Word :=
  let o := s.olc
  rdAny
  [rdSeq 0 [olcStat s, pack [(24, o.waitSh.toNat), (16, b2n o.keyReqSh), (0, o.maxUsSh.toNat)],
      pack [(24, o.waitAct.toNat), (16, b2n o.keyReqAct), (0, o.maxUsAct.toNat)], s.nv.stageSize.setWidth 32,
      if o.rollback.isSome then pack [(16, olcMib s)] else w32 (olcMib s),
      o.planMatch, o.planNew, o.planRemoved, o.planRetyped, o.planBytes, (satOf 16 o.planUs).setWidth 32,
      w32 (forceLoss s), o.actCyc, idAct s, idStaged s, idRollback s]]

/-- SVY_STAT.STATE (R245). -/
def svyState (v : Svy) : Nat := if v.failed then 4 else v.round

/-- The SVY block (R245 to R247). -/
def regSvy (s : State) : Nat → Word :=
  let v := s.svy
  let t := v.table[(0 : Lane)]
  rdAny
  [rdSeq 0 [v.cfgSh, v.cfgAct, pack [(8, laneCode v.odd), (0, svyState v)], tw t 1, tw t 2, tw t 3, tw t 4],
   rdN 0x20 4 5 (fun n => pack [(16, v.queues[n].quotaAct.toNat), (0, v.queues[n].quotaSh.toNat)]),
   rdN 0x40 4 5 (fun n => pack [(31, match s.triads[n].part with
       | some p => b2n s.parts[p].svyUse
       | none => 0), (30, b2n (v.queues[n].closeBy ≠ 0)), (27, v.queues[n].closeBy),
     (0, v.queues[n].held / 2)]),
   rdN 0x60 8 5 (fun n => match partDesc s n with
     | some d => w32 (d.svyOfs % 2 ^ 30)
     | none => 0#32),
   rdN 0x64 8 5 (fun n => match partDesc s n with
     | some d => w32 (d.svyLen % 2 ^ 23)
     | none => 0#32),
   rdSeq 0x90 [pack [(16, v.lastGranted.toNat), (0, v.lastReqs.toNat)], v.lastStart.setWidth 32,
               v.lastEnd.setWidth 32, v.roundMax.setWidth 32],
   rdSeq 0xA0 [pack [(31, b2n v.capValid), (16, v.capEvent.toNat), (8, v.capTriad.toNat), (4, v.capLane.toNat)],
               pack [(16, v.capRoute.toNat), (0, v.capIndex.toNat)], v.capCyc]]

/-! ### DIO, SAF -/

/-- The LO and HI register of a flag of the inputs. -/
def inBits (s : State) (f : InCh → Bool) : List Word :=
  let l := s.dio.ins.toList.map f
  [bitsAt 0 l, bitsAt 32 l]

/-- A flag of OUT_0 to OUT_23. -/
def outBits (s : State) (f : OutCh → Bool) : Word := bitsAt 0 ((s.dio.outs.toList.take 24).map f)

/-- DIO_OUT_CFG_n (R273). -/
def outCfg (o : OutCh) : Word :=
  pack [(31, b2n o.vital), (29, o.gang.toNat), (26, o.silModeSh.toNat), (16, o.silMsSh.toNat),
        (10, o.silModeAct.toNat), (0, o.silMsAct.toNat)]

/-- DIO_SBC_ST. -/
def sbcSt (s : State) : Word := bitsAt 0 ((fins 4).flatMap (fun k =>
  let o := s.dio.outs[sbcChan k]
  [o.termHigh, o.termLow, o.coil, o.pulse || o.brkTest]))

/-- DIO_SBC_LATCH. -/
def sbcLatch (s : State) : Word :=
  bitsAt 0 ((fins 4).map (fun k => s.dio.outs[sbcChan k].tfail) ++ (fins 4).map (fun k => s.dio.outs[sbcChan k].ovld))

/-- The DIO block (R271 to R273). -/
def regDio (s : State) : Nat → Word :=
  let d := s.dio
  rdAny
  [rdSeq 0 [bitsAt 0 [fclkGated s, d.fieldLow, d.iocfgDiff], d.fieldVolt.setWidth 32,
      pack [(16, d.intervalAct.toNat), (0, d.intervalSh.toNat)],
      pack [(16, d.aborted.toNat), (8, d.pos), (4, b2n (dioTesting s)), (0, d.last.toNat)]],
   rdN 0x10 4 48 (fun n => d.ins[n].cfgSh),
   rdN 0xD0 4 48 (fun n => d.ins[n].cfgAct),
   rdSeq 0x190 (inBits s (·.val) ++ inBits s (·.fault) ++ inBits s (·.brk) ++ inBits s (·.band)),
   rdN 0x1B0 4 48 (fun n => d.ins[n].trans),
   rdN 0x270 4 24 (fun n => outCfg d.outs[outChan n]),
   rdSeq 0x2D0 [outBits s (·.termHigh), outBits s (·.tfail), outBits s (·.ovld)],
   rdN 0x2E0 4 24 (fun n => d.outs[outChan n].switched),
   rdSeq 0x340 [sbcSt s, sbcLatch s],
   rdN 0x350 4 4 (fun k => d.outs[sbcChan k].switched)]

/-- SAF_RESET_ST.STATE. -/
def rstState (s : State) : Nat :=
  let xs := (rstInputs s).map (fun n => if (s.saf.desc.bind (·.resetA)) = some n then s.saf.inA else s.saf.inB)
  if s.saf.armAt.isSome then 3
  else if xs.isEmpty || xs.any (fun x => x = .waitOff) then 0
  else if xs.all (fun x => x = .ready) then 1 else 2

/-- SAF_RESET_CFG. -/
def rstCfg (d : SafetyDesc) : Word :=
  pack [(31, b2n d.hostReset), (30, b2n d.resetB.isSome), (29, b2n d.resetA.isSome),
        (16, (d.resetB.map (·.val)).getD 0), (8, (d.resetA.map (·.val)).getD 0), (0, d.disc)]

/-- The five registers of a brake test from their base. -/
def brkRegs (s : State) (k : Fin 4) : List Word :=
  let b := s.saf.brk[k]
  let st := pack [(31, b2n b.overdue), (16, min ((s.tb - b.passAt) / hourT) 0x7FFF), (8, b2n b.due),
                  (6, b.last.toNat), (0, b.phase.toNat)]
  match brkCfg s k with
  | some c => [pack [(31, 1), (24, c.torque), (16, c.interval), (8, c.grace), (0, c.tTest)],
               pack [(20, c.thresh), (0, c.position)], pack [(31, 1), (0, c.permit)], pack [(31, 1), (0, c.ack)], st]
  | none => [0#32, 0#32, 0#32, 0#32, st]

/-- SAF_EXER (R303). -/
def exerReg (s : State) : Word := match s.saf.exer with
  | some (ch, _) => if s.saf.exerOn then
      pack [(31, 1), (28, b2n (24 ≤ ch.val)), (16, ch.val % 24), (0, (s.saf.exerEnd - s.tb) / msT)] else 0#32
  | none => 0#32

/-- The SAF block (R303). What concerns local channels reads 0 on the TRV-16B. -/
def regSaf (s : State) : Nat → Word :=
  let f := s.saf
  let here := fun (w : Word) => if s.variant.dio then w else 0#32
  let mask := fun (p : Fin 48 → Bool) => [bitsAt 0 ((fins 48).map p), bitsAt 32 ((fins 48).map p)]
  rdAny
  [rdSeq 0 [bitsAt 0 [f.desc.isSome, f.cfgDiff], (f.desc.map rstCfg).getD 0#32,
      pack [(16, f.accepted.toNat), (8, f.reason.toNat), (2, f.source.toNat), (0, rstState s)]],
   rdSeq 0x10 ((mask (proofMarked s) ++ mask (fun n => f.pend[n])).map here),
   rdN 0x20 4 24 (fun n => match f.desc.bind (fun d => d.fb[n]) with
     | some m => here (pack [(31, 1), (30, b2n m.pol), (16, m.input.val), (0, m.tfb)])
     | none => 0#32),
   rd1 0x80 (here (outBits s (·.fbLatch))),
   (fun ofs => if ofs < 0x90 ∨ 0x110 ≤ ofs then none else (arr 0 0x20 4 ((ofs - 0x90) / 0x20 * 0x20)).bind (fun k =>
     rdSeq 0 ((brkRegs s k).map here) ((ofs - 0x90) % 0x20))),
   rd1 0x110 (exerReg s),
   rd1 0x120 (here f.dlaSt)]

/-! ### UB, CAN -/

/-- What the registers of a bus show: held while its clock is gated, but for what a boundary still applies (R443). -/
def ubShown (s : State) (b : Fin 2) : Ub :=
  let x := s.ub[b]
  match s.clk.heldUb[b] with
  | some h => { h with lay := x.lay, layAct := x.layAct, dynSh := x.dynSh, dynAct := x.dynAct, wp := x.wp,
                       stnSel := x.stnSel, sbValid := x.sbValid, wpSt := x.wpSt }
  | none => x

/-- A station bitmap. -/
def stnMap (x : Ub) (w : Nat) (f : StnRt → Bool) : Word :=
  w32 ((x.stations.filter (fun r => f r && decide (r.id / 32 = w))).foldl (fun a r => a + 2 ^ (r.id % 32)) 0)

/-- Admitted and not lost. -/
def StnRt.live (r : StnRt) : Bool := r.admitted && !r.lost

/-- UBx_STN_ERR and UBx_STN_ST (R349). -/
def stnRegs (s : State) (b : Fin 2) (x : Ub) : List Word :=
  match stnOf s b x.stnSel.toNat with
  | none => [0#32, 0#32]
  | some d => match x.stations.find? (fun r => r.id = d.id) with
    | some r => [pack [(16, r.sb.toNat), (0, r.missed.toNat)],
                 pack [(31, 1), (30, b2n r.admitted), (29, b2n r.lost), (16, min r.run 31), (0, d.owner.val)]]
    | none => [0#32, pack [(31, 1), (0, d.owner.val)]]

/-- UBx_DYNBUD_n (R346). -/
def dynBud (x : Ub) (n : Fin 5) : Word :=
  pack [(31, b2n (x.dyn.any (fun r => r.limited && r.part = n))), (16, x.dynAct[n].toNat), (0, x.dynSh[n].toNat)]

/-- A UBA or UBB block (R346 to R350). -/
def regUb (s : State) (b : Fin 2) : Nat → Word :=
  let x := ubShown s b
  rdAny
  [rdSeq 0 [pack [(16, fld x.layAct.cfg 0 6), (0, fld x.lay.cfg 0 6)],
      pack [(16, fld x.layAct.cyc 0 16), (0, fld x.lay.cyc 0 16)],
      x.lay.static, x.lay.dynseg, x.lay.timing, x.lay.sync, x.lay.cold],
   rdSeq 0x28 [x.layAct.static, x.layAct.dynseg, x.layAct.timing, x.layAct.sync, x.layAct.cold],
   rdSeq 0x40 ([pack [(16, x.stations.countP StnRt.live), (10, b2n ((if ubGated s b then s.clk.heldIo[b] else s.clk.srcIo) && x.st ≠ .off)), (9, b2n x.jamB), (8, b2n x.jamA),
        (0, x.st.code)], x.busCyc, pack [(16, if x.st = .foreign || x.st = .standby then x.keeperOfs.toNat else 0), (0, x.keeperSlot.toNat)],
      pack [(16, x.errA.1.toNat), (0, x.errA.2.toNat)], pack [(16, x.errB.1.toNat), (0, x.errB.2.toNat)],
      pack [(31, b2n x.sbValid), (30, b2n x.sbCh), (16, x.sbStation.toNat), (0, x.sbId.toNat)], x.sbDev, x.sbCyc,
      x.stnSel.setWidth 32] ++ stnRegs s b x),
   rdN 0x80 4 32 (fun w => stnMap x w.val StnRt.live),
   rdN 0x100 4 32 (fun w => stnMap x w.val (·.lost)),
   rdN 0x180 4 5 (fun n => ofTriad s n (dynBud x n)),
   rdN 0x1A0 4 8 (fun k => x.wp[k]),
   rdN 0x1C0 4 8 (fun k => x.wpCap[k]),
   rd1 0x1E0 (x.wpSt.setWidth 32)]

/-- What the registers of a channel show (R443). -/
def canShown (s : State) (c : Fin 4) : Can :=
  let x := s.can[c]
  match s.clk.heldCan[c] with
  | some h => { h with cfgSh := x.cfgSh, cfgAct := x.cfgAct, nbtSh := x.nbtSh, nbtAct := x.nbtAct, dbtSh := x.dbtSh,
                       dbtAct := x.dbtAct, tdcSh := x.tdcSh, tdcAct := x.tdcAct }
  | none => x

/-- CAN_n_STAT (R373). -/
def canStatReg (s : State) (c : Fin 4) (x : Can) : Word :=
  pack [(31, b2n x.clkIo), (30, b2n (bit s.clk.gateClosed c.val)), (29, b2n x.tdcOvf), (24, x.tdcv.toNat),
        (23, b2n (128 ≤ x.rxErr)), (16, x.rxErr % 128), (8, min x.txErr 255), (0, x.st.code)]

/-- One CAN channel (R373). -/
def regCan (s : State) (c : Fin 4) : Nat → Word :=
  let x := canShown s c
  rdAny
  [rdSeq 0 [pack [(16, x.cfgAct.toNat), (0, x.cfgSh.toNat)], x.nbtSh, x.dbtSh, x.tdcSh, x.nbtAct, x.dbtAct, x.tdcAct],
   rdSeq 0x20 [canStatReg s c x, x.rxCnt, x.txCnt, x.rxLost, pack [(16, x.errTx.toNat), (0, x.errRx.toNat)],
      pack [(16, x.collide.toNat), (0, x.busOffs.toNat)], pack [(16, x.maxFill.toNat), (0, x.fill.toNat)]]]

/-! ### HST, RCK, CRC, ERR, BST, LOG, KEY -/

/-- The registers of a ring from its base (R400). -/
def ringRegs (x : Ring) : List Word :=
  [lo32 x.sqBase, hi32 x.sqBase, lo32 x.cqBase, hi32 x.cqBase, ringCfg x,
   pack [(16, x.quotaAct.toNat), (0, x.quotaSh.toNat)],
   pack [(30, x.st.code), (29, b2n x.phase), (28, b2n (ringLimited x)), (16, x.sqHead % 4096), (12, x.lost.toNat),
         (0, x.cqTail % 4096)], x.seqLast]

/-- The HST block (R400). -/
def regHst (s : State) : Nat → Word :=
  let h := s.hst
  rdAny
  [rdSeq 0 [pack [(16, h.tagFail.toNat), (2, b2n h.sd), (1, b2n h.keys), (0, b2n h.link)], lo32 h.nonce, hi32 h.nonce],
   (fun ofs => if ofs < 0x40 ∨ 0x140 ≤ ofs then none else (arr 0 0x20 8 ((ofs - 0x40) / 0x20 * 0x20)).bind (fun r =>
     rdSeq 0 (ringRegs h.rings[r]) ((ofs - 0x40) % 0x20)))]

/-- What the RCK registers show (R443): held while gated, but for RCK_CFG, RCK_EQ_CFG and the twin's signals. -/
def rckShown (s : State) : Rck := match s.clk.heldRck with
  | some h => { h with twinEnSh := s.rck.twinEnSh, autoSh := s.rck.autoSh, autoAct := s.rck.autoAct,
                       limitSh := s.rck.limitSh, limitAct := s.rck.limitAct }
  | none => s.rck

/-- The RCK block (R427, R428). -/
def regRck (s : State) : Nat → Word :=
  let r := rckShown s
  rdAny
  [rdSeq 0 [bitsAt 0 [r.twinEnSh, r.autoSh] ||| pack [(17, b2n r.autoAct), (16, b2n r.twinEnAct)],
      pack [(8, b2n (bit s.clk.gateClosed rackGate)), (4, r.sid.toNat), (0, r.role.code)],
      w32 (r.pres.toNat / 2 * 2)],
   rdN 0x10 4 15 (fun i =>
     let p := r.parts[(⟨i.val + 1, by omega⟩ : Fin 16)]
     pack [(16, p.typ.toNat), (0, p.st.code)]),
   rd1 0x50 (pack [(16, r.given.toNat), (0, r.rcvd.toNat)]),
   rdSeq 0x60 [bitsAt 0 [r.equal, r.lock, r.transfer, r.peer], pack [(16, r.limitAct.toNat), (0, r.limitSh.toNat)],
      pack [(12, (satOf 20 r.owed.length).toNat), (0, r.lastKib.toNat)], r.ofsNs,
      pack [(30, r.hoCause.toNat), (28, r.hoLost.toNat), (0, r.hoCyc.toNat)]]]

/-- A check-value unit from its base (R457). -/
def crcRegs (u : Fin 8) (x : CrcU) : List Word :=
  let res := crcTrim u (crcRes u x.run)
  [pack [(28, crcPoly u), (16, x.modeAct.toNat), (12, b2n x.ie), (8, x.vec.toNat), (0, x.modeSh.toNat)], 0#32, 0#32,
   0#32, x.dmaOfs, pack [(30, x.dmaBank.toNat), (0, x.dmaLen.toNat)], lo32 res, hi32 res, lo32 x.exp, hi32 x.exp,
   pack [(16, x.count.toNat), (4, b2n x.ecc), (3, b2n x.dropped), (2, b2n x.busy), (1, b2n x.ok), (0, b2n x.mismatch)],
   pack [(16, x.late.toNat), (0, x.done.toNat)]]

/-- The CRC block (R457). -/
def regCrc (s : State) : Nat → Word := rdAny
  [(fun ofs => if 0x200 ≤ ofs then none else (arr 0 0x40 8 (ofs / 0x40 * 0x40)).bind (fun u =>
     rdSeq 0 (crcRegs u s.crc[u]) (ofs % 0x40))),
   rdSeq 0x200 [pack [(31, b2n s.crcCap.valid), (12, s.crcCap.bank.toNat), (8, s.crcCap.part.toNat),
     (4, s.crcCap.unit.toNat), (24, s.crcCap.job.toNat)], s.crcCap.cyc]]

/-- ERR_HND_n (R472). -/
def hndReg (s : State) (h : Hnd) : Word :=
  let run := h.isOpen && h.taken
  pack [(31, b2n h.isOpen), (30, b2n run), (27, h.nmis.length),
        (16, if run then min ((s.tb - h.budgetFrom) / usT) 0x7FF else 0), (0, h.code)]

/-- The ERR block (R472). -/
def regErr (s : State) : Nat → Word :=
  let e := s.err
  rdAny
  [rdSeq 0 [pack [(24, e.vq.length), (16, e.nq.length), (0, e.nvLost.toNat)], e.mask.setWidth 32, e.cntF, e.cntV,
      e.cntN, pack [(31, b2n e.ffValid), (0, e.ffCode.toNat)], e.ffCyc],
   rdN 0x20 4 5 (fun n => ofTriad s n (hndReg s s.triads[n].hnd)),
   rd1 0x40 (pack [(16, e.lastCls.toNat), (0, e.lastCode.toNat)])]

/-- The BST block (R497). The record registers read 0 if no copy is intact. -/
def regBst (s : State) : Nat → Word :=
  let b := s.bst
  let r := b.used.getD TestRec.init
  rdAny
  [rdSeq 0 [pack [(24, b.block.toNat), (16, b.pct.toNat), (8, b.reason.toNat), (7, b2n b.wait), (4, b.start.toNat),
        (0, b.phase.toNat)],
      pack [(16, b2n s.nv.forceFull), (0, s.nv.maxAge.toNat)],
      pack [(16, r.cause.toNat), (4, r.kind.toNat % 4), (0, r.result.toNat % 8)], r.poh, b.age,
      pack [(16, r.rsiMax.toNat), (0, r.rsiMin.toNat)], r.temp.setWidth 32, b.temp.setWidth 32,
      pack [(16, r.failCores.toNat), (0, r.failBlocks.toNat % 65536)], lo32 b.sig, hi32 b.sig,
      w32 (r.failBlocks.toNat / 65536 % 8)]]

/-- The LOG block (R509). BUSY reads 0: an update is one step. -/
def regLog (s : State) : Nat → Word := rdAny
  [rdSeq 0 [pack [(16, s.log.lost.toNat), (2, b2n s.log.wfail), (1, b2n !s.log.hist.isEmpty), (0, b2n s.log.bad)], s.log.seq,
      pack [(12, (pohNow s).toNat), (0, upTicks s % hourT / secT)]]]

/-- The KEY block (R400). -/
def regKey (s : State) : Nat → Word := rdAny
  [rdN 0 4 8 (fun k => pack [(31, b2n s.hst.slots[k].isSome), (30, b2n s.nv.sealed[k].isSome)]),
   rd1 0x20 (s.hst.keyStat.setWidth 32)]

/-! ### The map (R3, R510 to R512) -/

/-- A 32-bit read of BAR0. A register of the block under test reads as it stood at isolation (R490). -/
def readReg (s : State) (ofs : Nat) : Word :=
  if (absentUnit s ofs).isSome then 0#32
  else if s.bst.block.toNat = ofs / 0x800 then s.bst.held.getD (ofs % 0x800 / 4) 0#32
  else
    let o := ofs % 0x800
    match ofs / 0x800 with
    | 0x00 => regId s o
    | 0x01 => regClk s o
    | 0x02 => regTri s o
    | 0x03 => regScn s o
    | 0x04 => regPim s o
    | 0x05 => regOlc s o
    | 0x06 => regSvy s o
    | 0x07 => regDio s o
    | 0x08 => regSaf s o
    | 0x09 => regUb s 0 o
    | 0x0A => regUb s 1 o
    | 0x0B => match arr 0 0x200 4 (o / 0x200 * 0x200) with
      | some c => regCan s c (o % 0x200)
      | none => 0#32
    | 0x0C => regHst s o
    | 0x0D => regRck s o
    | 0x0E => regCrc s o
    | 0x0F => regErr s o
    | 0x10 => regBst s o
    | 0x11 => regLog s o
    | 0x12 => regKey s o
    | _ => 0#32

/-- A 32-bit read of BAR2 (R375, R512). -/
def readBar2 (s : State) (ofs : Nat) : Word :=
  if ofs < 0x800 then
    match arr 0 0x100 8 (ofs / 0x100 * 0x100) with
    | some r => if ofs % 0x100 = 0 then s.hst.rings[r].sqDb else if ofs % 0x100 = 4 then s.hst.rings[r].cqDb else 0#32
    | none => 0#32
  else if ofs < 0x900 then msixWord s ((ofs - 0x800) / 4)
  else if ofs = 0xC00 then s.hst.pba.setWidth 32
  else 0#32

/-- How a host read of BAR0 completes (R376). -/
inductive Completion where
  | data (w : Word)
  | unsupported
  | abort
  deriving DecidableEq, Repr

/-- The clock gate that a register access at a BAR0 offset runs under (R441): CAN_0 to CAN_3, UBA, UBB, the rack bus. -/
def gateOfReg (ofs : Nat) : Option Gate := match ofs / 0x800 with
  | 0x09 => some 4
  | 0x0A => some 5
  | 0x0B => if h : ofs % 0x800 / 0x200 < 4 then some ⟨ofs % 0x800 / 0x200, Nat.lt_trans h (by decide)⟩ else none
  | 0x0D => some 6
  | _ => none

/-- The completion of a host read of BAR0 (R376, R442): `forced` is the gate forced during the access, if one is. A read
that is not 32 bits wide and aligned is an Unsupported Request. -/
def bar0Read (s : State) (ofs size : Nat) (forced : Option Gate) : Completion :=
  if size ≠ 4 || ofs % 4 ≠ 0 then .unsupported
  else if (absentUnit s ofs).isNone && (gateOfReg ofs).isSome && gateOfReg ofs = forced then .abort
  else .data (readReg s ofs)

/-! ### The endpoint (R374) -/

/-- A capability of the endpoint. -/
inductive PcieCap where
  | powerManagement
  | pciExpress
  | msix
  | advancedErrors
  | serialNumber (n : Dword)
  deriving DecidableEq, Repr

/-- What the endpoint's one function declares (R374): identity, BAR sizes in bytes, MSI-X vectors, link generations and
widths, payload and read request sizes, power states (0 is D0, 3 is D3hot), capabilities. -/
structure PcieFunction where
  vendor : Nat
  device : Nat
  classCode : Nat
  bar0 : Nat
  bar2 : Nat
  vectors : Nat
  gens : List Nat
  widths : List Nat
  payloads : List Nat
  reads : List Nat
  powers : List Nat
  resettable : Bool
  caps : List PcieCap
  deriving DecidableEq, Repr

/-- The function of a variant: what it declares and nothing can change. What the host sets stands in `Hst.pcie`. -/
def pcieFunction (v : Variant) : PcieFunction :=
  { vendor := 0x1D7F, device := v.device, classCode := 0x088000, bar0 := 0x10000, bar2 := 0x1000, vectors := 16,
    gens := [1, 2, 3], widths := [1, 2, 4], payloads := [128, 256], reads := [128, 256, 512], powers := [0, 3],
    resettable := true,
    caps := [.powerManagement, .pciExpress, .msix, .advancedErrors, .serialNumber Config.serial] }

end Sys2Proof.Machine
end

