-- ==== Sys2Proof/Machine/RegWrite.lean ====
section
/-!
DEFINITION. Register writes (R3, R8 to R11, R57, R266, R490, R511): the fields of each block that can be written, what
a value outside a field's range does, and the clearing of W1C bits. A write is judged field by field: a field whose
value its chapter ignores keeps its shadow, and the other fields of the write apply.
-/
namespace Sys2Proof.Machine

open Sys2Proof

/-! ### The frame of every access -/

/-- A write that R10 ignores with CFG_WHILE_RUNNING. -/
def whileRunning (ofs : Nat) (s : State) : State := nvEvent Ev.cfgWhileRunning (w32 ofs) 0#32 s

/-- What a command leaves behind. -/
def after (f : State → Host.Outcome State Fault Refusal) (s : State) : State := match f s with
  | .next t => t
  | _ => s

/-- Whether every field of a layout write lies in its range: lowest bit, width, least and greatest value (R309). -/
def fieldsOk (v : Word) (fs : List (Nat × Nat × Nat × Nat)) : Bool :=
  fs.all (fun f => decide (f.2.2.1 ≤ fld v f.1 f.2.1 ∧ fld v f.1 f.2.1 ≤ f.2.2.2))

/-- The word that holds the fields of a write and nothing else (R11). -/
def fieldsOf (v : Word) (fs : List (Nat × Nat × Nat × Nat)) : Word :=
  pack (fs.map (fun f => (f.1, fld v f.1 f.2.1)))

/-- A choice among registers: the first group that names the offset acts. -/
def wrAny (l : List (Nat → Option (State → State))) (ofs : Nat) : State → State :=
  (l.findSome? (fun f => f ofs)).getD id

/-- One register, and an array of them. -/
def wr1 (at_ : Nat) (f : State → State) (ofs : Nat) : Option (State → State) := if ofs = at_ then some f else none
def wrN (base stride n : Nat) (f : Fin n → State → State) (ofs : Nat) : Option (State → State) :=
  (arr base stride n ofs).map f

/-- A register of a triad or partition that the variant lacks ignores writes. -/
def ifTriad (n : Fin 5) (f : State → State) (s : State) : State := if n.val < s.variant.triads then f s else s

/-! ### W1C bits (R8, STATUS_CLEAR) -/

/-- A capture's VALID cleared if bit 31 is written 1. -/
def clr31 (v : Word) (f : State → State) (s : State) : State := if bit v 31 then f s else s

/-- The W1C bits of captures and status registers. -/
def clearStatus (ofs : Nat) (v : Word) : State → State :=
  let ub := fun (base : Nat) (b : Fin 2) =>
    [wr1 (base + 0x54) (clr31 v (modUb b (fun x => { x with sbValid := false }))),
     wr1 (base + 0x1E0) (modUb b (fun x => { x with wpSt := x.wpSt &&& ~~~v.setWidth 8 }))]
  wrAny ([
    wr1 0x800 (fun s => if bit v 9 then modClk (fun c => { c with escape := false }) s else s),
    wr1 0x824 (modClk (fun c => { c with gateForced := c.gateForced &&& ~~~take_ 8 v 16 8 })),
    wrN 0x1100 0x40 5 (fun n => clr31 v (modTriad n (fun x => { x with cap := { x.cap with valid := false } }))),
    wrN 0x1400 0x10 5 (fun n => clr31 v (modTriad n (fun x => { x with trap := { x.trap with valid := false } }))),
    wr1 0x1450 (clr31 v (fun s => { s with tri := { s.tri with nvTrapValid := false } })),
    wr1 0x1824 (clr31 v (fun s => { s with scn := { s.scn with ovrValid := false } })),
    wr1 0x2004 (clr31 v (fun s => { s with pim := { s.pim with capValid := false } })),
    wr1 0x30A0 (clr31 v (modSvy (fun x => { x with capValid := false }))),
    wrN 0x7028 0x40 8 (fun u => onPort u 0x28 (modCrc u (fun x =>
      { x with ecc := x.ecc && !bit v 4, dropped := x.dropped && !bit v 3, ok := x.ok && !bit v 1,
               mismatch := x.mismatch && !bit v 0 }))),
    wr1 0x7200 (clr31 v (fun s => { s with crcCap := { s.crcCap with valid := false } })),
    wr1 0x7814 (clr31 v (fun s => { s with err := { s.err with ffValid := false } }))] ++ ub 0x4800 0 ++ ub 0x5000 1) ofs

/-- TRI_DYN_FAULT (R57, R67): cleared outside RUN, a gang as one (R260); a write of 1 in RUN is ignored with
CFG_WHILE_RUNNING. -/
def clearDyn (v : Word) (s : State) : State :=
  let chs := chans.filter (fun ch => bit v ch.val)
  if chs.isEmpty then s
  else if s.scn.mode = .run then whileRunning 0x10D4 s
  else
    let all := chs.flatMap (gangOf s)
    refreshCodes { s with tri := { s.tri with
      dynFault := all.foldl (fun b (ch : Chan) => bitSet b ch.val false) s.tri.dynFault } }

/-- The latch bits of a write to DIO_OUT_TFAIL, DIO_OUT_OVLD or DIO_SBC_LATCH: channel, and whether TEST_FAIL. -/
def latchBits (ofs : Nat) (v : Word) : List (Chan × Bool) :=
  let outs := ((fins 24).filter (fun n => bit v n.val)).map outChan
  if ofs = 0x3AD4 then outs.map (fun c => (c, true))
  else if ofs = 0x3AD8 then outs.map (fun c => (c, false))
  else if ofs = 0x3B44 then
    ((fins 4).filter (fun k => bit v k.val)).map (fun k => (sbcChan k, true)) ++
    ((fins 4).filter (fun k => bit v (4 + k.val))).map (fun k => (sbcChan k, false))
  else []

/-- Whether a latch may be cleared only outside RUN (R266). -/
def latchHeld (s : State) (x : Chan × Bool) : Bool := x.2 || s.dio.outs[x.1].vital || decide (24 ≤ x.1.val)

/-- One latch of a channel and its gang cleared (R260, R266). An overdue brake test becomes due, and its new grace time
runs from the clearing (R293). -/
def clearLatch (x : Chan × Bool) (s : State) : State :=
  let s := forEach (gangOf s x.1) (fun c => modOut c (fun o =>
    if x.2 then { o with tfail := false } else { o with ovld := false })) s
  match x.2, chanSbc x.1 with
  | true, some k => if s.saf.brk[k].overdue then
      modBrk k (fun b => { b with overdue := false, due := true, graceAt := some s.tb }) s else s
  | _, _ => s

/-- The latch bits written 1 (R266): those that may not be cleared in RUN are ignored there, with CFG_WHILE_RUNNING. -/
def clearLatches (ofs : Nat) (v : Word) (s : State) : State :=
  let run := s.scn.mode = .run
  let bits := latchBits ofs v
  let s1 := refreshCodes (forEach (bits.filter (fun x => !(run && latchHeld s x))) clearLatch s)
  if run && bits.any (latchHeld s) then whileRunning ofs s1 else s1

/-- SCN_SOLVE_MAX_n.RESET (R162). -/
def resetSolveMax (n : PartId) (s : State) : State := ifTriad n (modPart n (fun p => { p with solveMax := 0 })) s

/-- SVY_ROUND_MAX.RESET (R245). -/
def resetRoundMax (s : State) : State := modSvy (fun x => { x with roundMax := 0#16 }) s

/-! ### CLK, TRI, SCN, PIM, OLC -/

/-- CLK_SSC: depths up to 8, rates 20 to 120 (R447). -/
def sscWrite (v old : Word) : Word :=
  let f := fun (lo w min_ max_ : Nat) => (lo, (pick v lo w min_ max_ (take_ 32 old lo w)).toNat)
  pack [f 0 4 0 8, f 8 8 20 120, f 16 4 0 8, f 24 8 20 120]

/-- CLK_DIV (R440, R447). -/
def divWrite (v old : Word) : Word :=
  let f := fun (lo w min_ max_ : Nat) => (lo, (pick v lo w min_ max_ (take_ 32 old lo w)).toNat)
  pack [f 0 4 1 15, f 8 3 1 7, f 11 5 8 31, (16, if fld v 16 12 = 1 then fld old 16 12 else fld v 16 12)]

/-- A write to CLK_GATE sets and clears gate requests (R441, R444). -/
def gateWrite (v : Word) (s : State) : State :=
  forEach (fins 8) (fun g s =>
    if bit v g.val then after (execGateRequest g) s
    else after (execGateReopen g) (after (execGateWithdraw g) s)) s

/-- The CLK block (R447). -/
def wrClk (v : Word) : List (Nat → Option (State → State)) :=
  [wr1 0x804 (fun s => if bit v 0 then after execXoReturnRequest s else s),
   wr1 0x80C (modClk (fun c => { c with retWinSh := pick v 8 8 1 255 c.retWinSh, steerSh := bit v 1,
                                        autoSh := bit v 0 })),
   wr1 0x810 (modClk (fun c => { c with sscSh := sscWrite v c.sscSh })),
   wr1 0x818 (modClk (fun c => { c with divSh := divWrite v c.divSh })),
   wr1 0x820 (gateWrite v)]

def modTri (f : Tri → Tri) (s : State) : State := { s with tri := f s.tri }

/-- The bits of TRI_SPLIT that the variant has. -/
def triadMask (s : State) : BitVec 5 := BitVec.ofNat 5 (2 ^ s.variant.triads - 1)

/-- TRI_HANDOVER (R93): VALID 1 asks, VALID 0 withdraws what is pending. -/
def hoWrite (v : Word) (s : State) : State :=
  modTri (fun t => { t with hoValid := bit v 31, hoTarget := take_ 3 v 4 3, hoPart := take_ 3 v 0 3,
                            hoStatus := if bit v 31 then 1#2 else if t.hoStatus = 1#2 then 0#2 else t.hoStatus }) s

/-- The TRI block (R60, R97 to R100). -/
def wrTri (v : Word) : List (Nat → Option (State → State)) :=
  [wr1 0x1000 (modTri (fun t => { t with lagWinSh := pick v 0 8 1 128 t.lagWinSh,
                                         lagWarnSh := pick v 8 8 0 128 t.lagWarnSh })),
   wr1 0x10D4 (clearDyn v),
   wr1 0x1240 (modTri (fun t => { t with finalPagesSh := pick v 0 11 16 1024 t.finalPagesSh,
                                         pairLimitSh := take_ 16 v 16 16 })),
   wr1 0x12B0 (modTri (fun t => { t with retestSh := pick v 0 8 0 168 t.retestSh })),
   wr1 0x12D0 (fun s => modTri (fun t => { t with unleashSh := take_ 5 v 0 5 &&& triadMask s }) s),
   wr1 0x12E0 (hoWrite v),
   wrN 0x1300 4 16 (fun k s => if k.val < s.variant.cores then
     modTri (fun t => { t with nvqSh := vset t.nvqSh k (v &&& 0x3FFF0FFF#32) }) s else s),
   wr1 0x13C0 (modTri (fun t => { t with scrubSh := pick v 0 8 1 168 t.scrubSh }))]

/-- The SCN block (R140, R162, R163). -/
def wrScn (v : Word) : List (Nat → Option (State → State)) :=
  [wr1 0x1804 (modScan (fun c => { c with tcycSh := pick v 0 14 10 10000 c.tcycSh, safeExitSh := bit v 28 })),
   wr1 0x1808 (fun s => { s with nv := { s.nv with autorun := bit v 0 } }),
   wrN 0x1840 4 5 (fun n => ifTriad n (modPart n (fun p => { p with budgetSh := take_ 20 v 0 20 }))),
   wrN 0x18A0 4 5 (fun n => if bit v 31 then resetSolveMax n else id),
   wrN 0x18C0 4 8 (fun k => modNv k (fun p => { p with budgetSh := take_ 20 v 0 20 }))]

/-- OLC_STAGE_CFG.SIZE (R190, R210): stored, in STOP only. -/
def stageWrite (v : Word) (s : State) : State :=
  if s.scn.mode = .stop then { s with nv := { s.nv with stageSize := take_ 12 v 0 12 } } else whileRunning 0x280C s

/-- The PIM, OLC and SVY blocks (R184, R211, R245, R246). -/
def wrPim (v : Word) : List (Nat → Option (State → State)) :=
  [wr1 0x2008 (fun s => { s with pim := { s.pim with tmoSh := take_ 16 v 0 16 } }),
   wr1 0x2804 (fun s => { s with olc := { s.olc with
     maxUsSh := pick v 0 16 100 10000 s.olc.maxUsSh, waitSh := pick v 24 8 1 255 s.olc.waitSh, keyReqSh := bit v 16 } }),
   wr1 0x280C (stageWrite v),
   wr1 0x3000 (modSvy (fun x => { x with cfgSh := if fld v 0 8 = 0 then (v &&& 0xFFFFFF00#32) ||| (x.cfgSh &&& 0xFF#32)
     else v })),
   wrN 0x3020 4 5 (fun n => modSvy (fun x => { x with
     queues := vupd x.queues n (fun q => { q with quotaSh := take_ 15 v 0 15 }) })),
   wr1 0x309C (if bit v 31 then resetRoundMax else id)]

/-! ### DIO, UB, CAN -/

/-- The DIO block (R271 to R273). -/
def wrDio (v : Word) : List (Nat → Option (State → State)) :=
  [wr1 0x3808 (modDio (fun d => { d with intervalSh := pick v 0 16 1 65535 d.intervalSh })),
   wrN 0x3810 4 48 (fun n => modIn n (fun x => { x with cfgSh := inCfgWrite v x.cfgSh })),
   wrN 0x3A70 4 24 (fun n => modOut (outChan n) (fun o => { o with silMsSh := pick v 16 10 1 1000 o.silMsSh,
                                                                   silModeSh := pick v 26 2 0 2 o.silModeSh })),
   wr1 0x3AD4 (clearLatches 0x3AD4 v), wr1 0x3AD8 (clearLatches 0x3AD8 v), wr1 0x3B44 (clearLatches 0x3B44 v)]

/-- The fields and ranges of the seven layout registers, in their order (R346, R347). -/
def layFields : List (List (Nat × Nat × Nat × Nat)) :=
  [[(0, 6, 0, 63)], [(0, 16, 250, 20000)], [(0, 11, 1, 2047), (16, 12, 16, 4095)], [(0, 13, 0, 4096), (16, 8, 4, 255)],
   [(0, 8, 1, 255), (8, 8, 1, 127), (16, 4, 1, 15), (24, 8, 136, 254)], [(0, 8, 1, 255), (16, 16, 50, 5000)],
   [(0, 11, 1, 2047), (16, 4, 2, 15)]]

/-- A word into layout register `i`. -/
def UbLayout.put (l : UbLayout) (i : Nat) (w : Word) : UbLayout := match i with
  | 0 => { l with cfg := w }
  | 1 => { l with cyc := w }
  | 2 => { l with static := w }
  | 3 => { l with dynseg := w }
  | 4 => { l with timing := w }
  | 5 => { l with sync := w }
  | _ => { l with cold := w }

/-- A write to a layout register: ignored as a whole if a field is out of its range (R309). -/
def layWrite (b : Fin 2) (i : Fin 7) (v : Word) (s : State) : State :=
  let fs := layFields.getD i.val []
  if fieldsOk v fs then modUb b (fun x => { x with lay := x.lay.put i.val (fieldsOf v fs) }) s else s

/-- The UBA or UBB block (R346 to R350). -/
def wrUb (base : Nat) (b : Fin 2) (v : Word) : List (Nat → Option (State → State)) :=
  [wrN base 4 7 (fun i => layWrite b i v),
   wr1 (base + 0x60) (modUb b (fun x => { x with stnSel := take_ 10 v 0 10 })),
   wrN (base + 0x180) 4 5 (fun n => ifTriad n (modUb b (fun x => { x with dynSh := vset x.dynSh n (take_ 13 v 0 13) }))),
   wrN (base + 0x1A0) 4 8 (fun k => modUb b (fun x => { x with wp := vset x.wp k (v &&& 0xC0F7FFFF#32) }))]

/-- The CAN channels (R373). -/
def wrCan (c : Fin 4) (v : Word) (o : Nat) : State → State := wrAny
  [wr1 0 (modCan c (fun x => { x with cfgSh := take_ 5 v 0 5 })),
   wr1 4 (modCan c (fun x => { x with nbtSh := canNbt v x.nbtSh })),
   wr1 8 (modCan c (fun x => { x with dbtSh := v &&& 0x1F1F0F0F#32 })),
   wr1 12 (modCan c (fun x => { x with tdcSh := v &&& 0x7F7F#32 })),
   wr1 0x40 (fun s =>
     let s := if bit v 0 then after (execCanRecover c) s else s
     if bit v 1 then after (execCanClrMax c) s else s)] o

/-! ### HST, RCK, CRC, ERR, BST -/

/-- A queue base register of a ring (R379): `cq` and `high` say which half. -/
def baseWrite (r : Fin 8) (i : Fin 4) (v : Word) (s : State) : State :=
  let x := s.hst.rings[r]
  let put := fun (b : Dword) => if i.val % 2 = 0 then (hi32 b ++ v : BitVec 64) else (v ++ lo32 b : BitVec 64)
  let y := if i.val < 2 then { x with sqBase := put x.sqBase } else { x with cqBase := put x.cqBase }
  if x.en then (if y = x then s else whileRunning (0x6040 + 0x20 * r.val + 4 * i.val) s)
  else modRing r (fun _ => y) s

/-- The registers of a ring from its base (R379, R400). -/
def wrRing (r : Fin 8) (v : Word) (o : Nat) : State → State := wrAny
  [wrN 0 4 4 (fun i => baseWrite r i v), wr1 0x10 (ringCfgWrite (ringCfgOfs r) r v),
   wr1 0x14 (modRing r (fun x => { x with quotaSh := pick v 0 13 1 4096 x.quotaSh }))] o

/-- The RCK block (R427, R428). -/
def wrRck (v : Word) : List (Nat → Option (State → State)) :=
  [wr1 0x6800 (modRck (fun r => { r with twinEnSh := bit v 0, autoSh := bit v 1 })),
   wr1 0x6864 (modRck (fun r => { r with limitSh := pick v 0 16 1 3000 r.limitSh }))]

/-- CRC_n_CFG (R457): MODE is shadowed; IE and VEC change at once except in JOBS mode, where R10 ignores a change. -/
def crcCfgWrite (u : Fin 8) (v : Word) (s : State) : State :=
  let s := modCrc u (fun x => { x with modeSh := pick v 0 2 0 2 x.modeSh }) s
  let x := s.crc[u]
  let y := { x with ie := bit v 12, vec := take_ 4 v 8 4 }
  if x.modeAct = 2#2 then (if y = x then s else whileRunning (crcBase u) s) else modCrc u (fun _ => y) s

/-- The port fields of a check-value unit from its base (R450, R451, R457). -/
def wrCrc (u : Fin 8) (v : Word) (o : Nat) : State → State :=
  let exp := fun (f : Dword → Dword) => modCrc u (fun x => { x with exp := crcTrim u (f x.exp) })
  wrAny
  [wr1 0 (crcCfgWrite u v),
   wr1 4 (onPort u 4 (fun s =>
     let s := if bit v 0 then after (execCrcInit u) s else s
     let s := if bit v 1 then after (execCrcGo u) s else s
     if bit v 2 then after (execCrcCheck u) s else s)),
   wr1 8 (after (execCrcData u v)), wr1 12 (after (execCrcDataB u v)),
   wr1 0x10 (onPort u 0x10 (modCrc u (fun x => { x with dmaOfs := v }))),
   wr1 0x14 (onPort u 0x14 (modCrc u (fun x => { x with dmaBank := pick v 30 2 1 3 x.dmaBank,
                                                        dmaLen := take_ 24 v 0 24 }))),
   wr1 0x20 (onPort u 0x20 (exp (fun e => hi32 e ++ v))),
   wr1 0x24 (onPort u 0x24 (exp (fun e => v ++ lo32 e)))] o

/-- The ERR and BST blocks (R472, R497). -/
def wrErr (v : Word) : List (Nat → Option (State → State)) :=
  [wr1 0x7804 (fun s => { s with err := { s.err with mask := take_ 19 v 0 19 } }),
   wr1 0x8004 (fun s => { s with nv := { s.nv with maxAge := pick v 0 12 24 2160 s.nv.maxAge, forceFull := bit v 16 } })]

/-- Registers in groups of one stride: CAN channels, rings, check-value units. -/
def wrGroup (base stride n : Nat) (f : Fin n → Nat → State → State) (ofs : Nat) : Option (State → State) :=
  if ofs < base then none else (arr 0 stride n ((ofs - base) / stride * stride)).map (fun i => f i ((ofs - base) % stride))

/-- A 32-bit write of BAR0 to a present block that is not under test. Where a register has W1C bits and nothing else,
they are cleared; an offset that no register has is ignored (R511). -/
def writeBar0 (ofs : Nat) (v : Word) (s : State) : State :=
  let s := clearStatus ofs v s
  wrAny (wrClk v ++ wrTri v ++ wrScn v ++ wrPim v ++ wrDio v ++ wrUb 0x4800 0 v ++ wrUb 0x5000 1 v ++
    [wrGroup 0x5800 0x200 4 (fun c => wrCan c v), wrGroup 0x6040 0x20 8 (fun r => wrRing r v)] ++ wrRck v ++
    [wrGroup 0x7000 0x40 8 (fun u => wrCrc u v)] ++ wrErr v) ofs s

/-- A word of the MSI-X table (R375, R383): only the mask bit of a vector control can be written; unmasking a pending
vector signals it. -/
def msixWrite (k : Nat) (v : Word) (s : State) : State :=
  let w := if k % 4 = 3 then (v &&& 1#32) ^^^ 1#32 else v
  let s := modHst (fun h => { h with msix := SMap.set 0#32 h.msix k w }) s
  match arr 0 1 16 (k / 4) with
  | some i =>
    if bit s.hst.pba i.val && !msixMasked s i then
      signalVec i (modHst (fun h => { h with pba := bitSet h.pba i.val false }) s)
    else s
  | none => s

/-- A 32-bit write of BAR2 (R375, R512). -/
def writeBar2 (ofs : Nat) (v : Word) (s : State) : State :=
  if ofs < 0x800 then
    match arr 0 0x100 8 (ofs / 0x100 * 0x100) with
    | some r =>
      if ofs % 0x100 = 0 then after (execSqTailDoorbell r v) s
      else if ofs % 0x100 = 4 then after (execCqHeadDoorbell r v) s else s
    | none => s
  else if ofs < 0x900 then msixWrite ((ofs - 0x800) / 4) v s
  else s

/-! ### Commands -/

/-- REGISTER_WRITE (R10): an access that is not aligned or lies outside the BAR is dropped (R376). -/
def execRegisterWrite (bar2 : Bool) (ofs : Nat) (v : Word) (s : State) : Host.Outcome State Fault Refusal :=
  .next (
    if ofs % 4 ≠ 0 then s
    else if bar2 then writeBar2 ofs v s
    else if 0x10000 ≤ ofs then s
    else onReg ofs (writeBar0 ofs v) s)

/-- STATUS_CLEAR (R8). -/
def execStatusClear (ofs : Nat) (v : Word) (s : State) : Host.Outcome State Fault Refusal :=
  .next (onReg ofs (clearStatus ofs v) s)

/-- DYN_FAULT_CLEAR (R57). -/
def execDynFaultClear (v : Word) (s : State) : Host.Outcome State Fault Refusal :=
  .next (onReg 0x10D4 (clearDyn v) s)

/-- OUTPUT_LATCH_CLEAR (R266). -/
def execOutputLatchClear (ofs : Nat) (v : Word) (s : State) : Host.Outcome State Fault Refusal :=
  .next (onReg ofs (clearLatches ofs v) s)

/-- SOLVE_MAX_RESET (R162). -/
def execSolveMaxReset (n : PartId) (s : State) : Host.Outcome State Fault Refusal :=
  .next (onReg (0x18A0 + 4 * n.val) (resetSolveMax n) s)

/-- ROUND_MAX_RESET (R245). -/
def execRoundMaxReset (s : State) : Host.Outcome State Fault Refusal := .next (onReg 0x309C resetRoundMax s)

/-- ABSENT_UNIT_ACCESS (R3): a read gives 0, a write is ignored, the event is raised. An access to a present unit is
that unit's own command. -/
def execAbsentUnitAccess (ofs : Nat) (_write : Option Word) (s : State) : Host.Outcome State Fault Refusal :=
  .next (match absentUnit s ofs with
    | some u => touchAbsent u ofs s
    | none => s)

/-- UNSUPPORTED_BAR0_ACCESS (R376): answered Unsupported Request or dropped; it leaves no trace. -/
def execUnsupportedBar0Access (_ofs _size : Nat) (_write : Bool) (s : State) : Host.Outcome State Fault Refusal :=
  .next s

end Sys2Proof.Machine
end

