-- ==== Sys2Proof/Machine/TriadCtl.lean ====
section
/-!
DEFINITION. Triad control at a boundary: steps 1 to 9 of R84, with reserves (R82, R83, R85), the Kennel's outcomes
(R87), hand-overs (R93 to R95), and leashing and unleashing (R89, R90).
-/
namespace Sys2Proof.Machine

open Sys2Proof

/-! ### Steps 1 and 2 -/

/-- The limit of pair operation has passed (R76). The limit that counts is the one that is active after step 4 of the
boundary, a choice of the model where it changes at that boundary (log entry 112). -/
def pairExpired (s : State) (t : TriadId) : Bool :=
  let x := s.triads[t]
  x.mode = .pair && s.tri.pairLimitAct ≠ 0#16 && decide (x.pairSince + s.tri.pairLimitAct.toNat * secT ≤ s.tb)

/-- Step 1 of R84: the lag windows still open close (R45), and a triad that has run too long as a pair is stopped
(R76). -/
def triClose (at_ : VoteAt) (s : State) : State :=
  forEach (fins 5) (fun t s =>
    let s := closeWindows at_ t s
    if pairExpired s t then vitalStopsTriad Ev.pairExpired (triArg s t) 0#32 t s else s) s

/-- Step 2 of R84: odd cores, and the cores of stopped triads, enter KENNEL. -/
def triKennel (s : State) : State :=
  let s := forEach (fins 16) (fun c s => if s.cores[c].st = .odd then kenEnter false false c s else s) s
  forEach (fins 5) (fun t s =>
    if s.triads[t].mode = .stopped then
      let s := forEach (fins 3) (fun l s => match s.triads[t].cores[l] with
        | some c => kenEnter false false c s
        | none => s) s
      modTriad t (fun x => { x with cores := Vector.replicate 3 none }) s
    else s) s

/-! ### Step 3 -/

/-- A pass reached before this boundary (R84 step 3). -/
def kenPassed (s : State) (c : CoreId) : Bool := s.cores[c].st = .kennel && match s.cores[c].kenResult with
  | some (.pass, at_) => decide (at_ < s.scn.bTb)
  | _ => false

/-- Whether a core is held for a triad that is being leashed (R90). -/
def leashHeld (s : State) (c : CoreId) : Bool :=
  (fins 5).any (fun t => s.triads[t].leashing && (fins 3).any (fun l => s.triads[t].cores[l] = some c))

/-- A core becomes a free reserve. After a re-test it keeps its place in the order of R82 (R85). -/
def toReserve (c : CoreId) (s : State) : State :=
  modCore c (fun k => { Core.init with resSince := if k.retest then k.resSince else s.scn.bTb, kenAt := s.scn.bTb }) s

/-- A core takes a lane with empty architectural state (R84). -/
def toLane (c : CoreId) (s : State) : State := modCore c (fun _ => { Core.init with st := .lane }) s

/-- The empty lanes of a triad. -/
def emptyLanes (s : State) (t : TriadId) : List Lane := (fins 3).filter (fun l => s.triads[t].cores[l].isNone)

/-- The cores in a triad's lanes. -/
def laneCores (s : State) (t : TriadId) : List CoreId := (fins 3).filterMap (fun l => s.triads[t].cores[l])

/-- A core that failed its quick check has gone on to the full test: its lane is empty (R90). -/
def leashDrop (t : TriadId) (s : State) : State :=
  if s.triads[t].leashing then
    modTriad t (fun x => { x with cores := vmap (fun o => o.bind (fun c =>
      if s.cores[c].kenQuick then some c else none)) x.cores }) s
  else s

/-- Every check of a triad that is being leashed has ended, and the cores still in its lanes have passed (R90). -/
def leashDone (s : State) (t : TriadId) : Bool := s.triads[t].leashing && (laneCores s t).all (kenPassed s)

/-- A leashed triad whose three cores have passed is formed as IDLE (R90). -/
def leashForm (t : TriadId) (s : State) : State :=
  if leashDone s t && (emptyLanes s t).isEmpty then
    modTriad t (fun x => { x with mode := .idle, leashing := false }) (forEach (laneCores s t) toLane s)
  else s

/-- Step 3 of R84: outcomes take effect, and the retries of R87 and the re-tests of R85 that are due start. That a re-test
starts in this step, and so before the reserves are assigned, is a choice of the model (log entry 97). -/
def triOutcomes (s : State) : State :=
  let s := forEach (fins 5) leashDrop s
  let s := forEach (fins 5) leashForm s
  let s := forEach (fins 16) (fun c s => if kenPassed s c && !leashHeld s c then toReserve c s else s) s
  forEach (fins 16) (fun c s =>
    let k := s.cores[c]
    if !k.due then s
    else if k.st = .kennel && k.ken = .waitInvalid then kenTest k.kenQuick c s
    else if k.st = .reserve then kenEnter false true c s else modCore c (fun k => { k with due := false }) s) s

/-! ### Step 5: the order of reserves (R82) and their assignment (R83) -/

/-- Insertion of a reserve by the time it has waited, then by number. -/
def insReserve (s : State) (c : CoreId) : List CoreId → List CoreId
  | [] => [c]
  | x :: l => if s.cores[c].resSince < s.cores[x].resSince then c :: x :: l else x :: insReserve s c l

/-- The free reserves in the order of R82. -/
def freeReserves (s : State) : List CoreId :=
  ((fins 16).filter (fun c => s.cores[c].st = .reserve)).foldl (fun l c => insReserve s c l) []

/-- A core for a lane. -/
structure Pick where
  triad : TriadId
  lane : Lane
  core : CoreId
  deriving DecidableEq, Repr

/-- The assignment so far: free reserves, banks that have their final pass at this boundary (R75), cores given, and
triads that are ready and find no reserve. -/
structure Assign where
  free : List CoreId
  banks : List Lane
  picks : List Pick
  noRes : List TriadId
  deriving DecidableEq, Repr

/-- Lanes of a triad filled from the free reserves. -/
def fillLanes (t : TriadId) (ls : List Lane) (a : Assign) : Assign :=
  { a with free := a.free.drop ls.length,
           picks := a.picks ++ (ls.zip a.free).map (fun x => ⟨t, x.1, x.2⟩) }

/-- One triad's turn (R83). A triad that is not formed, or is being leashed, gets cores only if they complete it (R90,
R484); the region of one that carries a partition has nothing dirty or unresolved, so that it is ready. -/
def assignOne (s : State) (skip : Option TriadId) (a : Assign) (t : TriadId) : Assign :=
  let x := s.triads[t]
  let holes := emptyLanes s t
  if skip = some t || holes.isEmpty || decide (s.variant.triads ≤ t.val) then a
  else match x.mode with
  | .notFormed =>
    if (x.leashing && !leashDone s t) || decide (a.free.length < holes.length) then a else fillLanes t holes a
  | .idle => fillLanes t holes a
  | .pair =>
    match holes with
    | [l] =>
      if !heelReady s t then a
      else if a.free.isEmpty then { a with noRes := a.noRes ++ [t] }
      else if a.banks.contains l then a
      else fillLanes t [l] { a with banks := l :: a.banks }
    | _ => a
  | _ => a

/-- The assignment of a boundary, lowest triad first. -/
def assignAll (s : State) (skip : Option TriadId) (banks : List Lane) : Assign :=
  (fins 5).foldl (assignOne s skip) { free := freeReserves s, banks := banks, picks := [], noRes := [] }

/-- RESERVE_NONE, once for a Heel (R83). -/
def noReserve (t : TriadId) (s : State) : State :=
  if s.triads[t].heel.noRes then s
  else nvEventFor Ev.reserveNone (whoOf t) (triArg s t) 0#32 (modHeel t (fun h => { h with noRes := true }) s)

/-- A triad being leashed that cannot be completed stays not formed, and its passed cores wait in RESERVE (R90). -/
def leashGiveUp (picks : List Pick) (t : TriadId) (s : State) : State :=
  if leashDone s t && !(emptyLanes s t).isEmpty && !picks.any (fun p => p.triad = t) then
    let s := forEach (laneCores s t) toReserve s
    modTriad t (fun x => { x with leashing := false, cores := Vector.replicate 3 none }) s
  else s

/-! ### Step 4: hand-over requests (R93, R94) -/

/-- A hand-over that this boundary performs: partition, from, to, and the odd lane of a pair. -/
structure Move where
  part : PartId
  source : TriadId
  target : TriadId
  odd : Option Lane
  deriving DecidableEq, Repr

/-- The request of TRI_HANDOVER, none if it breaks a condition of R93. -/
def moveAsked (s : State) : Option Move :=
  let p := s.tri.hoPart.toNat
  let t := s.tri.hoTarget.toNat
  if hp : p < 5 then
    if ht : t < 5 then
      let p : PartId := ⟨p, hp⟩
      let t : TriadId := ⟨t, ht⟩
      match triadOf s p with
      | some src =>
        if s.parts[p].st = .none || s.parts[p].st = .stopped || src = t || s.triads[t].mode ≠ .idle ||
            !(emptyLanes s t).isEmpty then none
        else some ⟨p, src, t, if s.triads[src].mode = .pair then (emptyLanes s src).head? else none⟩
      | none => none
    else none
  else none

/-- A request is refused (R93). -/
def moveRefuse (s : State) : State :=
  nvEvent Ev.handoverRefused 0#32 0#32 (modTri (fun x => { x with hoValid := false, hoStatus := 3#2 }) s)

/-- Whether a lower-numbered triad has the bank's final pass at this boundary (R75). -/
def bankTaken (s : State) (m : Move) (l : Lane) : Bool :=
  (assignAll s (some m.source) []).picks.any (fun p => p.lane = l && decide (p.triad.val < m.source.val) &&
    s.triads[p.triad].mode = .pair)

/-- Step 4 of R84: the hand-over of this boundary, if one is asked for and may take place. -/
def triHandover (s : State) : Option Move × State :=
  let s := modTri (fun x => { x with hoSwitched := [] }) s
  if !s.tri.hoValid then (none, s)
  else match moveAsked s with
  | none => (none, moveRefuse s)
  | some m =>
    let held := match m.odd with
      | some l => !heelReady s m.source || bankTaken s m l
      | none => false
    if held then (none, modTri (fun x => { x with hoStatus := 1#2 }) s) else (some m, s)

/-! ### Steps 6 and 7 -/

/-- The final pass for a lane, if the triad carries a partition (R75). -/
def passFor (t : TriadId) (l : Lane) (s : State) : State := match s.triads[t].part with
  | some p => if s.triads[t].mode = .pair then finalPass t p l s else s
  | none => s

/-- A triad after its lanes were filled (R84 step 7). -/
def triComplete (t : TriadId) (s : State) : State :=
  if (emptyLanes s t).isEmpty then
    modTriad t (fun x => { x with mode := if x.part.isSome then .triad else .idle, odd := none, leashing := false }) s
  else s

/-- An assigned core takes its lane (R84 step 7); a triad that its final pass has stopped takes none. -/
def takeLane (p : Pick) (s : State) : State :=
  if s.triads[p.triad].mode = .stopped then s
  else
    let s := forEach (laneCores s p.triad) (fun c s => if s.cores[c].st = .kennel then toLane c s else s) s
    let s := modTriad p.triad (fun x => { x with cores := vset x.cores p.lane (some p.core) }) (toLane p.core s)
    let s := logCore p.core 5 (triComplete p.triad s)
    nvEventFor Ev.rotated (whoOf p.triad) (w32 (256 * (p.lane.val + 1) + p.core.val)) 0#32 s

/-- A hand-over takes effect (R95); one whose partition the final pass has stopped is refused. -/
def moveTake (m : Move) (s : State) : State :=
  if s.triads[m.source].mode = .stopped then moveRefuse s
  else
    let h := s.triads[m.source].hnd
    let s := modTriad m.target (fun x => { x with part := some m.part, mode := .triad, hnd := h, odd := none }) s
    let s := modTriad m.source (fun x => { x with part := none, mode := .idle, odd := none,
                                                  hnd := Hnd.init }) s
    enablesLost (modTri (fun x => { x with hoValid := false, hoStatus := 2#2, hoSwitched := [m.part] }) s)

/-- A Heel whose region has been ready at a boundary raises no HEEL_SLOW (R76). -/
def heelSeen (t : TriadId) (s : State) : State :=
  if heelReady s t then modHeel t (fun h => { h with slow := true }) s else s

/-- Steps 4 to 7 of R84. -/
def triAssign (s : State) : State :=
  let s := forEach (fins 5) heelSeen s
  let (move, s) := triHandover s
  let a := match move with
    | some m => assignAll s (some m.source) m.odd.toList
    | none => assignAll s none []
  let s := forEach a.noRes noReserve s
  let s := forEach (fins 5) (leashGiveUp a.picks) s
  let s := forEach a.picks (fun p => passFor p.triad p.lane) s
  let s := match move with
    | some ⟨_, src, _, some l⟩ => passFor src l s
    | _ => s
  let s := forEach a.picks takeLane s
  match move with
  | some m => moveTake m s
  | none => s

/-! ### Steps 8 and 9 -/

/-- The program area and the initial instance data of a non-vital image in its core's quota window, where they fit (R186,
R539, log entry 103). -/
def nvLoad (c : CoreId) (x : NvImage) (s : State) : State :=
  let w := s.tri.nvqAct[c]
  let base := fld w 0 12 * 1048576
  let size := fld w 16 12 * 1048576
  match quotaBank w with
  | some b =>
    let s := if 4 * x.program.length ≤ size then bankPut b base (progBytes x.program) s else s
    forEach x.data (fun d s => if d.1 + 4 ≤ size then bankPut b (base + d.1) (leBytes 4 d.2.toNat) s else s) s
  | none => s

/-- The non-vital partitions of a core wait for it to be unleashed (SCN_NVPART_k.STATE 0x1, log entry 134). -/
def nvAwait (c : CoreId) (s : State) : State :=
  forEach (fins 8) (fun k s => match nvDesc s k with
    | some d => if d.core = c then modNv k (fun x => { x with st := .waiting }) s else s
    | none => s) s

/-- The non-vital partitions of a core may run again, from their initial data (R92, R156). -/
def nvFresh (c : CoreId) (s : State) : State :=
  let s := modTri (fun x => { x with nvPages := vset x.nvPages c [], nvLimited := vset x.nvLimited c false }) s
  let s := forEach (fins 8) (fun k s => match s.olc.active.bind (fun im => im.nvs[k]) with
    | some x => if x.desc.core = c then nvLoad c x s else s
    | none => s) s
  nvAwait c s

/-- An unleash request (R89). -/
def unleashOne (t : TriadId) (s : State) : State :=
  let i := t.val
  if !bit s.tri.unleashSh i || bit s.tri.unleashAct i then s
  else if s.triads[t].mode = .idle then
    let s := forEach (laneCores s t) (fun c s => nvFresh c (modCore c (fun _ => { Core.init with st := .unleashed }) s)) s
    modTri (fun x => { x with unleashAct := bitSet x.unleashAct i true })
      (modTriad t (fun x => { x with mode := .unleashed }) s)
  else
    nvEventFor Ev.splitRefused (whoOf t) 0#32 0#32 (modTri (fun x => { x with unleashSh := bitSet x.unleashSh i false }) s)

/-- A non-vital partition still running on a core is cut (R90, R145 step 2, R156). -/
def nvCut (c : CoreId) (s : State) : State :=
  match s.cores[c].nv with
  | none => s
  | some k =>
    let s := modNv k (fun x => { x with st := .cut, last := usSince s.cores[c].nvSince s.tb }) s
    nvEventFor Ev.nvOverrun (nvWho k) (w32 (8 + k.val)) 0#32 (modCore c (fun x => { x.halt with nv := none }) s)

/-- A leash request (R90): the cores start the quick Kennel check. Pages stay in use until a restart (R92). -/
def leashOne (t : TriadId) (s : State) : State :=
  let i := t.val
  if bit s.tri.unleashSh i || !bit s.tri.unleashAct i then s
  else
    let s := modTri (fun x => { x with unleashAct := bitSet x.unleashAct i false }) s
    let s := modTriad t (fun x => { x with mode := .notFormed, leashing := true }) s
    forEach (laneCores s t) (fun c s => nvAwait c (kenEnter true false c (nvCut c s))) s

/-- Steps 1 to 9 of R84. A bank's engine that has become free serves the next Heel (R71). -/
def triSteps (at_ : VoteAt) (s : State) : State :=
  let s := triAssign (triOutcomes (triKennel (triClose at_ s)))
  let s := forEach (fins 5) leashOne (forEach (fins 5) unleashOne s)
  refreshCodes (forEach (fins 3) heelPump (ubSilence s))

end Sys2Proof.Machine
end

