-- ==== Sys2Proof/Machine/Boundary.lean ====
section
/-!
DEFINITION. The boundary (R139 to R163): the stamp and the snapshots, overruns and the watchdog, shadows and forces,
triad control, on-line change, mode requests and resets, and the arming of the next cycle.
-/
namespace Sys2Proof.Machine

open Sys2Proof

/-! ### Overruns (R154, R157, R158) -/

/-- SCN_OVR holds the first overrun while VALID is 0 (R158). KIND 1 is a budget overrun, 2 a watchdog overrun. -/
def ovrCapture (kind cyc : Nat) (p : PartId) (s : State) : State :=
  if s.scn.ovrValid then s
  else modScan (fun x => { x with ovrValid := true, ovrPart := BitVec.ofNat 3 p.val, ovrKind := BitVec.ofNat 2 kind,
                                  ovrIso := s.parts[p].isolated, ovrCyc := w32 cyc }) s

/-- CYCLE_OVERRUN of one partition, before the module enters SAFE (R158, R467). -/
def cycleOverrun (p : PartId) (s : State) : State :=
  let full := !vqRoom s
  let s := fatalNote Ev.cycleOverrun (w32 p.val) 0#32 (queueV Ev.cycleOverrun (BitVec.ofNat 8 p.val) (w32 p.val) 0#32 s)
  if full then fatalNote Ev.errQueueFull 0#32 0#32 (countEv Ev.errQueueFull s) else s

/-- PART_OVERRUN of an isolated partition, which stops alone (R158). -/
def partOverrun (p : PartId) (s : State) : State := match triadOf s p with
  | some t => vitalStopsPart Ev.partOverrun (w32 p.val) 0#32 t s
  | none => stopPart p s

/-- Overruns that are found together are noted in partition order, and the isolated partitions among them stop. -/
def overrunNotes (kind cyc : Nat) (ps : List PartId) (s : State) : State :=
  if ps.isEmpty then s
  else forEach ps (fun p s =>
    let s := ovrCapture kind cyc p s
    if s.parts[p].isolated then partOverrun p s else cycleOverrun p s) (modScan (fun x => { x with overran := true }) s)

/-- The module enters SAFE once every one of some overruns is noted, if a partition that is not isolated is among them
(R158). `before` is the state in which they were found. -/
def overrunSafe (ps : List PartId) (before s : State) : State :=
  if ps.any (fun p => !before.parts[p].isolated) && s.scn.mode ≠ .safe then enterSafe Ev.cycleOverrun s else s

/-- Overruns that are found together within a cycle. -/
def overruns (kind cyc : Nat) (ps : List PartId) (s : State) : State := overrunSafe ps s (overrunNotes kind cyc ps s)

/-- The partitions whose Solve of the cycle has begun, or waits for their last Emit, and whose commit of kind 0x4 is not
released (R144, R157). -/
def unreleased (s : State) : List PartId := (fins 5).filter (fun p => s.parts[p].st = .solving || s.parts[p].entered)

/-- The non-vital partitions still running at B are cut (R156). -/
def nvCutAll (s : State) : State :=
  forEach (fins 16) (fun c s =>
    let s := if s.cores[c].st = .unleashed then nvCut c s else s
    modCore c (fun k => { k with nvIdle := [] }) s) s

/-- Steps 2 and 3 of R145 for the partitions that are late at B: the overruns, the cuts, and the entry into SAFE. -/
def closeLate (cyc : Nat) (s : State) : State :=
  overrunSafe (unreleased s) s (nvCutAll (overrunNotes 2 cyc (unreleased s) s))

/-- WATCHDOG_EXPIRY (R157): at B + T_cyc, the tick of the next boundary, whose steps 2 and 3 it begins. With PLL-T
stopped it cannot act (R436). -/
def execWatchdogExpiry (s : State) : Host.Outcome State Fault Refusal :=
  .next (
    if !s.scn.mode.bounded || s.clk.stopped || (unreleased s).isEmpty then s
    else
      let s := modScan (fun x => { x with watchdogOvr := unreleased s }) (advanceTo s.scn.nextB s)
      closeLate s.scn.cycle s)

/-- BUDGET_EXPIRY (R154): the budget that was armed ends at AGREE_END + BUDGET µs, which does not come with
PLL-T stopped. -/
def execBudgetExpiry (p : PartId) (s : State) : Host.Outcome State Fault Refusal :=
  .next (
    let b := s.parts[p].budgetArmed.toNat
    if !s.parts[p].entered || b = 0 || s.clk.stopped then s
    else overruns 1 s.scn.cycle [p] (advanceTo (s.scn.agreeTb + b * usT) s))

/-! ### Step 1 -/

/-- Every request queue is empty at a boundary, and no round has begun (R225, R227). -/
def svyTurn (s : State) : State :=
  { s with svy := { s.svy with
      round := 0, pres := [], done := [], agreedAt := [],
      queues := vmap (fun q => { q with words := [], closeBy := 0, closeLen := 0, areaFull := false, discarded := false })
        s.svy.queues } }

/-- What TRI_COMMITS_n and TRI_LAGMAX_n show is that of the ending cycle (R64, R65). -/
def triLatch (s : State) : State :=
  { s with triads := vmap (fun x =>
      { x with commitsLast := w32 x.commits, commits := 0, lagLast := x.lagRun, lagRun := (0#2, 0),
               lagWarned := false }) s.triads }

/-- The events that a block raises at most once in a cycle may be raised again (R382, R511). -/
def onceTurn (s : State) : State :=
  { s with absent := [],
           hst := { s.hst with rings := vmap (fun x => { x with cqLostRaised := false }) s.hst.rings } }

/-- COMM_EN: all six readings of the key show ON (R149, R534). -/
def commEnOf (b : BoundaryIn) : Bool := (fins 6).all (fun i => b.key[i])

/-- The channels that are ON as the hold-over of a former ACTIVE begins stay so on a held credit (R422). -/
def holdCredits (s : State) : State :=
  if s.rck.holdOver ≠ some s.scn.cycle then s
  else forEach chans (fun ch s =>
    if s.dio.outs[ch].emitsOn then modOut ch (fun o => { o with credit := some s.scn.cycle }) s else s) s

/-- The stamp: TB at B, the cycle number, and COMM_EN as sampled (R145 step 1, R149). A hold-over begins here, before a
credit can lapse. -/
def stampB (b : BoundaryIn) (at_ : Nat) (s : State) : State :=
  holdCredits (modScan (fun x => { x with bTb := at_, cycle := x.cycle + 1, phase := 0#2, agreed := false,
                                          stepped := false, commEn := commEnOf b }) (advanceTo at_ s))

/-- The latches and snapshots of R142. -/
def snapshots (b : BoundaryIn) (s : State) : State :=
  let s := dioSnapshot b.volt (hostSnapshot (rackSnapshot (canSnapshot (ubSnapshot s))))
  let s := clearOverlays (forEach (fins 5) copySignals (msgCopies s))
  onceTurn (triLatch (svyTurn (scrubTurn (crcTurn s))))

/-! ### Step 2 -/

/-- The cycle time histogram for the cycle that ends (R504): its B, its length, its number. -/
def cycleTime (b len cyc : Nat) (s : State) : State :=
  let ends := (fins 5).filterMap (fun p =>
    if s.parts[p].released && s.parts[p].releaseCyc = cyc then some (s.parts[p].releaseTb - b) else none)
  if s.scn.overran then logBin 0x500 31 s
  else if ends.isEmpty then s
  else logBin 0x500 (min 31 (32 * ends.foldl max 0 / max 1 len)) s

/-- Step 2 and 3 of R145: overruns, the cut of non-vital partitions still running (R156), and every partition that
ended is ready again; a non-vital one that was done in the ending cycle waits (log entry 134). `b`, `len` and `cyc` are those of the ending cycle. -/
def closeCycle (b len cyc : Nat) (s : State) : State :=
  let s := closeLate cyc s
  let s := cycleTime b len cyc s
  let s := forEach (fins 5) (fun p => modPart p (fun x =>
    { x with st := if x.st = .ended then .ready else x.st, entered := false, released := false })) s
  let s := forEach (fins 8) (fun k => modNv k (fun x => { x with st := if x.st = .done then .waiting else x.st })) s
  modScan (fun x => { x with overran := false, watchdogOvr := [] }) s

/-! ### Step 4 -/

/-- The voting, Heel, re-test and scrub settings (R60, R98 to R100). UNLEASH takes effect in steps 8 and 9 of R84. -/
def triShadows (s : State) : State :=
  modTri (fun t => { t with lagWinAct := t.lagWinSh, lagWarnAct := t.lagWarnSh, pairLimitAct := t.pairLimitSh,
                            finalPagesAct := t.finalPagesSh, retestAct := t.retestSh, scrubAct := t.scrubSh }) s

/-- Whether a quota change is refused (R91): BANK or BASE while the core is UNLEASHED, a window on a vital region or on
staging space, or one that reaches past bank offset 0xDFFF_FFFF. What counts as the staging space, and that a BASE above
3,583 without a window is taken, are choices of the model (log entry 99). -/
def nvqBad (s : State) (c : CoreId) (w : Word) : Bool :=
  let old := s.tri.nvqAct[c]
  let span := (fld w 0 12, fld w 16 12)
  let moved := fld w 28 2 ≠ fld old 28 2 || fld w 0 12 ≠ fld old 0 12
  (moved && s.cores[c].st = .unleashed) ||
  match quotaBank w with
  | none => false
  | some _ =>
    decide (3584 < span.1 + span.2) || (imageSpans (runImage s)).any (spansMeet span) ||
      s.olc.space.any (fun x => spansMeet span x.2)

/-- The quotas of R91, core by core. -/
def nvqShadows (s : State) : State :=
  forEach (fins 16) (fun c s =>
    let w := s.tri.nvqSh[c]
    if w = s.tri.nvqAct[c] then s
    else if nvqBad s c w then
      nvEvent Ev.nvqRefused (w32 c.val) 0#32 (modTri (fun t => { t with nvqSh := vset t.nvqSh c t.nvqAct[c] }) s)
    else modTri (fun t => { t with nvqAct := vset t.nvqAct c w,
                                   nvLimited := vset t.nvLimited c
                                     (t.nvLimited[c] && decide (fld w 16 12 * 256 ≤ t.nvPages[c].length)) }) s) s

/-- The settings of the Survey unit; a sum of quotas above 16,384 refuses every quota change (R225, R246). -/
def svyShadows (s : State) : State :=
  let s := { s with svy := { s.svy with cfgAct := s.svy.cfgSh } }
  let sum : Nat := (fins 5).foldl (fun (n : Nat) t => n + s.svy.queues[t].quotaSh.toNat) 0
  if (fins 5).all (fun t => s.svy.queues[t].quotaSh = s.svy.queues[t].quotaAct) then s
  else if 16384 < sum then
    nvEvent Ev.svyQuotaRefused 0#32 0#32
      { s with svy := { s.svy with queues := vmap (fun q => { q with quotaSh := q.quotaAct }) s.svy.queues } }
  else { s with svy := { s.svy with queues := vmap (fun q => { q with quotaAct := q.quotaSh }) s.svy.queues } }

/-- The budgets and SAFE_EXIT (R155, R162). -/
def scnShadows (s : State) : State :=
  let s := { s with parts := vmap (fun p => { p with budgetAct := p.budgetSh }) s.parts,
                    nvs := vmap (fun k => { k with budgetAct := k.budgetSh }) s.nvs }
  modScan (fun x => { x with safeExitAct := x.safeExitSh }) s

/-- A force command at the boundary (R179, R181): a set is judged again, a removal is always accepted. -/
def forceTurn (c : ForceCmd) (s : State) : State :=
  match c.value with
  | none =>
    complete c.ref St.ok 0 { s with pim := s.pim.setForces (s.pim.forces.filter (fun f => f.gaz ≠ c.gaz)) }
  | some v =>
    let why := forceRefusal s s.scn.commEn c.sig v
    let why := if why = 0 && forceFull (s.pim.forces.map (·.gaz)) c.gaz then 1 else why
    if why ≠ 0 then complete c.ref St.refused why (forceRefused why c.sig s)
    else
      let f : Force := { gaz := c.gaz, sig := c.sig, value := v, cyc := s.scn.cycle }
      let fs := if s.pim.forces.any (fun x => x.gaz = c.gaz)
        then s.pim.forces.map (fun x => if x.gaz = c.gaz then f else x) else s.pim.forces ++ [f]
      complete c.ref St.ok 0 (nvEvent Ev.forceApplied c.sig.arg 0#32 { s with pim := s.pim.setForces fs })

/-- The force commands accepted for this boundary, in the order of arrival: of several for one signal the last applies,
and the others complete SUPERSEDED (R179). -/
def forcesTurn (s : State) : State :=
  let cmds := s.pim.cmds
  let s := { s with pim := { s.pim with cmds := [] } }
  forEach (cmds.zipIdx) (fun x s =>
    if (cmds.drop (x.2 + 1)).any (fun y => y.gaz = x.1.gaz) then complete x.1.ref St.superseded 0 s
    else forceTurn x.1 s) s

/-- Step 4 of R145: every RWB field takes its shadow value, with the checks of the owning chapters, and the forces. -/
def shadows (s : State) : State :=
  let s := nvqShadows (triShadows s)
  let s := scnShadows (svyShadows (hostShadows (olcShadows s)))
  let s := rackShadows (dioShadows (ubShadows (ubTcyc s)))
  let pll := pllcChanges s
  let s := forEach (fins 4) (canApply pll) (clkShadows s)
  refreshCodes (forcesTurn (crcModes s))

/-! ### Step 7 -/

/-- A mode or step request that fails at the boundary: REFUSED with BOUNDARY, and MODE_REFUSED (R148). -/
def reqRefuse (ref : CmdRef) (s : State) : State :=
  complete ref St.refused Dt.boundary (nvEvent Ev.modeRefused 0#32 0#32 s)

/-- Entry into SHUTDOWN at a boundary (R398, R488): the commands end, the buses and channels go off, Heel is abandoned,
and no boundary follows. -/
def enterShutdown (ref : CmdRef) (s : State) : State :=
  let s := setMode .shutdown 0 s
  let s := hostShutdown (some ref) (olcShutdown s)
  let s := rackStop (canStop (ubStop (nvOutsOff s)))
  let s := forEach (fins 5) (fun t => modHeel t (fun h => { h with st := .none, pages := [], dirty := [], unres := [] })) s
  let s := haltAll s
  { s with bst := { s.bst with phase := 3#3 }, saf := { s.saf with leave := false } }

/-- A mode request takes effect, or is refused (R147, R148). A request for the current mode changes nothing. -/
def reqApply (ref : CmdRef) (m : Mode) (s : State) : State :=
  if modeDetail s m ≠ 0 then reqRefuse ref s
  else if m = s.scn.mode then complete ref St.ok 0 s
  else if m = .shutdown then enterShutdown ref s
  else complete ref St.ok 0 (setMode m 0 s)

/-- The mode requests in the order of arrival. -/
def modeReqs (s : State) : List (CmdRef × Mode) := s.scn.reqs.filterMap (fun r => match r.2 with
  | .mode m => some (r.1, m)
  | _ => none)

/-- The accepted mode requests: the last applies, the others complete SUPERSEDED (R148). After an entry into SAFE in the
ending cycle only SHUTDOWN requests stand, and every other mode or step request is refused (R145 step 7). -/
def modeTurn (safeEntry : Bool) (s : State) : State :=
  let rs := modeReqs s
  let s := if safeEntry then
      let (out, stay) := s.scn.reqs.partition (fun r => match r.2 with
        | .mode m => m ≠ .shutdown
        | .step => true
        | _ => false)
      forEach out (fun r => reqRefuse r.1) (modScan (fun x => { x with reqs := stay, stepPending := false }) s)
    else s
  let rs := if safeEntry then rs.filter (fun r => r.2 = .shutdown) else rs
  let s := forEach rs.dropLast (fun r => complete r.1 St.superseded 0) s
  match rs.getLast? with
  | some r => reqApply r.1 r.2 s
  | none => s

/-- HOLD is left at the boundary that samples COMM_EN inactive (R147). -/
def holdTurn (s : State) : State :=
  if s.scn.mode = .hold && !s.scn.commEn then nvEvent Ev.holdLeft 0#32 0#32 (setMode .stop 0 s) else s

/-- The transition out of SAFE that an accepted reset asks for (R147, R283). The conditions for RUN are those of a run
request in STOP: a valid image. -/
def resetTurn (s : State) : State :=
  let go := s.saf.leave && s.scn.mode = .safe
  let s := { s with saf := { s.saf with leave := false } }
  if go then setMode (if s.scn.safeExitAct && s.scn.imageValid then .run else .stop) 0 s else s

/-- The step request (R153). -/
def stepTurn (s : State) : State :=
  let rs := s.scn.reqs.filter (fun r => r.2 = .step)
  let s := modScan (fun x => { x with stepPending := false }) s
  forEach rs (fun r s =>
    if stepDetail s = 0 then complete r.1 St.ok 0 (modScan (fun x => { x with stepped := true }) s)
    else reqRefuse r.1 s) s

/-- The restarts of non-vital partitions (R92, R392). -/
def nvTurn (s : State) : State :=
  forEach s.scn.reqs (fun r s => match r.2 with
    | .nvRestart c =>
      if s.cores[c].st = .unleashed then complete r.1 St.ok 0 (nvFresh c s) else complete r.1 St.refused Dt.boundary s
    | _ => s) s

/-- Step 7 of R145, and the removal of forces after it (R182). -/
def requestsTurn (safeEntry : Bool) (s : State) : State :=
  let before := s.scn.mode
  let s := if safeEntry then { s with saf := { s.saf with leave := false } } else s
  let s := modeTurn safeEntry s
  if s.scn.mode = .shutdown then s
  else
    let s := nvTurn (stepTurn (holdTurn (resetTurn s)))
    let s := modScan (fun x => { x with reqs := x.reqs.filter (fun r => r.2 = .handover) }) s
    refreshCodes (sweepForces (decide (s.scn.mode = .run ∧ before ≠ .run)) s)

/-! ### Steps 8 and 9 -/

/-- Step 8 of R145: the boundary actions of the buses, and the starts of SAF. -/
def busTurn (s : State) : State :=
  exerTurn (brkStarts (twinBoundary (eqTurn (rackAdmit (ubAdmit s)))))

/-- The largest time in whole µs that final passes add: 0.512 µs for each page (R75). -/
def finalUs (s : State) : Nat := s.tri.finalPagesAct.toNat * 512 / 1000

/-- Step 9 of R145: the watchdog and the budgets are armed. How long the boundary actions took, the spec bounds (R143)
and does not state: a free value within the bound, to which a final pass of this boundary and the carry-over of an
activation add (log entry 27). -/
def armCycle (s : State) : State :=
  let (w, s) := draw s
  let us := w.toNat % (101 + if s.tri.finalRan then finalUs s else 0) + s.olc.carryUs
  let s := { s with parts := vmap (fun p => { p with budgetArmed := p.budgetAct }) s.parts,
                    tri := { s.tri with finalRan := false } }
  modScan (fun x => { x with nextB := x.bTb + tcycTicks s, bndEnd := satOf 16 us, phase := 1#2 }) s

/-- Steps 4 to 9 of R145. `safeEntry` says that the mode became SAFE in step 3 or earlier in the ending cycle. -/
def bndTail (at_ : VoteAt) (s : State) : State :=
  let safeEntry := s.scn.safeThisCycle
  let s := modScan (fun x => { x with safeThisCycle := false }) s
  let s := triSteps at_ (shadows s)
  let s := requestsTurn safeEntry (ubSilence (enablesLost (olcTurn s)))
  if s.scn.mode = .shutdown then s else armCycle (busTurn s)

/-- BOUNDARY (R145). With PLL-T stopped no B comes (R436). -/
def execBoundary (b : BoundaryIn) (s : State) : Host.Outcome State Fault Refusal :=
  .next (
    if !s.scn.mode.bounded || s.scn.cycle = 0 || s.clk.stopped then s
    else
      let at_ := voteNow s
      let len := s.scn.nextB - s.scn.bTb
      let s := snapshots b (stampB b s.scn.nextB (clkReturn (advanceTo s.scn.nextB s)))
      bndTail at_ (closeCycle at_.base len at_.cyc s))

end Sys2Proof.Machine
end

