-- ==== Sys2Proof/Machine/Control.lean ====
section
/-!
DEFINITION. Calls, returns, jumps, instance checks and the system instructions but those of the Survey unit (R107,
R110, R115 to R122, R134).
-/
namespace Sys2Proof.Machine

open Sys2Proof

/-- The illegal instruction (R107). -/
def execIllegalInstruction (c : CoreId) (_word : Word) (s : State) : Host.Outcome State Fault Refusal :=
  .next (onCore c (fun x s => takeTrap c x Ev.illegal 0#32 s) s)

/-- A jump: PC := target. -/
def jumpOp (c : CoreId) (far : Core → Option Word) (target : Core → BitVec 22) (s : State) : State :=
  onCore c (fun x s => match far s.cores[c] with
    | some a => takeTrap c x Ev.addrFault a s
    | none => modCore c (fun k => Core.retire x.vital { k with pc := target k }) s) s

/-- JMP: PC := TARGET (R108). -/
def execJmp (c : CoreId) (target : BitVec 22) (s : State) : Host.Outcome State Fault Refusal :=
  .next (jumpOp c (fun _ => none) (fun _ => target) s)

/-- JMPR: PC := Ga[21:0]; ADDR_FAULT if Ga[31:22] is not zero (R110). -/
def execJmpr (c : CoreId) (ga : Reg) (s : State) : Host.Outcome State Fault Refusal :=
  .next (jumpOp c (fun k => if farTarget (k.reg ga) then some (k.reg ga) else none)
    (fun k => (k.reg ga).setWidth 22) s)

/-- Step 2 of R116: an instance pointer that is misaligned, outside the region window of R104, or without room for its
header. -/
def ibBad (x : CoreCtx) (v : Word) : Bool :=
  !instOk x.size v

/-- CALL and CALLR after the target check: steps 1 to 5 of R116. IB_FAULT reports the instance pointer as its address,
STACK_OVERFLOW none (log entry 12). -/
def callOp (c : CoreId) (x : CoreCtx) (gi : Reg) (target : BitVec 22) (s : State) : State :=
  let v := s.cores[c].reg gi
  if 64 ≤ s.cores[c].stack.length then takeTrap c x Ev.stackOverflow 0#32 s
  else if gi ≠ 0 && ibBad x v then takeTrap c x Ev.ibFault v s
  else modCore c (fun k =>
    let k := { k with stack := (k.pc + 1#22, k.ib) :: k.stack }
    Core.retire x.vital (Core.setIb x.vital (if gi = 0 then k.ib else v) { k with pc := target })) s

/-- CALL (R116). -/
def execCall (c : CoreId) (gi : Reg) (target : BitVec 22) (s : State) : Host.Outcome State Fault Refusal :=
  .next (onCore c (fun x => callOp c x gi target) s)

/-- CALLR (R110, R116): the target is checked first. -/
def execCallr (c : CoreId) (gi ga : Reg) (s : State) : Host.Outcome State Fault Refusal :=
  .next (onCore c (fun x s =>
    let t := s.cores[c].reg ga
    if farTarget t then takeTrap c x Ev.addrFault t s else callOp c x gi (t.setWidth 22) s) s)

/-- RET (R117): with an entry on the stack a return, a commit point of kind 0x2; with an empty stack the end of Solve,
a commit point of kind 0x4. A non-vital partition ends, and the next one on its core starts (R156). -/
def execRet (c : CoreId) (s : State) : Host.Outcome State Fault Refusal :=
  .next (onCore c (fun x s =>
    match s.cores[c].stack with
    | (pc, ib) :: rest => modCore c (fun k =>
        let k := Core.setIb x.vital ib { k with pc := pc, stack := rest }
        if x.vital then Core.present 2 0 0#32 0#32 { k with count := k.count + 1 } else k) s
    | [] => match x.who with
      | .vital _ _ _ => modCore c (fun k => Core.present 4 0 0#32 0#32 { k with count := k.count + 1 }) s
      | .nonvital n => nvEnd c n .done s) s)

/-- The word that ENTER compares: TYPE_HASH at IB, read from the own bank (R115, R118). -/
def typeHashAt (s : State) (c : CoreId) (x : CoreCtx) : Word :=
  bankWord s x.bank (x.base + (s.cores[c].ib.toNat - 0x40000000))

/-- ENTER: its read at IB is checked like any access (R105); INSTANCE_TYPE if the TYPE_HASH there differs from Ga (R118). That
trap reports IB as its address: a choice of the
model, as R136 does not say whether this code has one (log entry 12). -/
def execEnter (c : CoreId) (ga : Reg) (s : State) : Host.Outcome State Fault Refusal :=
  .next (trapOp c 0 (fun x s => (loadBad s c x 4 s.cores[c].ib).orElse (fun _ =>
    if typeHashAt s c x = s.cores[c].reg ga then none else some (Ev.instanceType, s.cores[c].ib))) (fun _ _ => 0#32) s)

/-- ASSERT: ASSERT_FAIL if Ga = 0 (R110). -/
def execAssert (c : CoreId) (ga : Reg) (s : State) : Host.Outcome State Fault Refusal :=
  .next (trapOp c 0 (fun _ s => if s.cores[c].reg ga = 0#32 then some (Ev.assertFail, 0#32) else none)
    (fun _ _ => 0#32) s)

/-- DEPTH: Gd := the entries on the call stack (R110). -/
def execDepth (c : CoreId) (gd : Reg) (s : State) : Host.Outcome State Fault Refusal :=
  .next (regOp c gd (fun k => w32 k.stack.length) s)

/-- RDIB: Gd := IB (R110). -/
def execRdib (c : CoreId) (gd : Reg) (s : State) : Host.Outcome State Fault Refusal :=
  .next (regOp c gd (fun k => k.ib) s)

/-- The own partition number: 0 to 4 for P0 to P4, 8 to 15 for N0 to N7 (R121). -/
def selfNumber (x : CoreCtx) : Nat := match x.who with
  | .vital _ _ p => p.val
  | .nonvital n => 8 + n.val

/-- The value of an RDB selector (R121). -/
def rdbValue (x : CoreCtx) (s : State) (sel : Nat) : Word := match sel with
  | 0 => w32 s.scn.bTb
  | 1 => w32 (s.scn.bTb / 2 ^ 32)
  | 2 => w32 s.scn.cycle
  | 3 => w32 (s.scn.cycle / 2 ^ 32 % 65536)
  | 4 => w32 (tcycTicks s)
  | _ => w32 (selfNumber x)

/-- RDB: boundary values; an unknown selector is ILLEGAL (R121). -/
def execRdb (c : CoreId) (gd : Reg) (sel : Fin 32) (s : State) : Host.Outcome State Fault Refusal :=
  .next (trapOp c gd (fun _ _ => if sel.val < 6 then none else some (Ev.illegal, 0#32))
    (fun x s => rdbValue x s sel.val) s)

/-- RDT: the live TB in a non-vital partition, PRIV in a vital one (R122). A selector above 1 is ILLEGAL (log entry
13). -/
def execRdt (c : CoreId) (gd : Reg) (sel : Fin 32) (s : State) : Host.Outcome State Fault Refusal :=
  .next (trapOp c gd (fun x _ => if x.vital then some (Ev.priv, 0#32)
      else if sel.val < 2 then none else some (Ev.illegal, 0#32))
    (fun _ s => w32 (if sel.val = 0 then s.tb else s.tb / 2 ^ 32)) s)

/-- RDE: the code of the event being handled, 0 outside a handler (R110, R465). -/
def execRde (c : CoreId) (gd : Reg) (s : State) : Host.Outcome State Fault Refusal :=
  .next (regOp c gd (fun k => if k.nmiSave.isSome then w32 k.nmiCode else 0#32) s)

/-- RETN (R134): PC, IB and G1 to G31 return from the save area, no record is fed, and the voter receives a marker
(R461). Outside a handler it traps with PRIV (R130). -/
def execRetn (c : CoreId) (s : State) : Host.Outcome State Fault Refusal :=
  .next (onCore c (fun x s =>
    match s.cores[c].nmiSave, x.who with
    | some (pc, ib, g), .vital t l _ =>
      retnMark t l (modCore c (fun k =>
        Core.retire true { k with pc := pc, ib := ib, g := g, nmiSave := none, nmiCode := 0 }) s)
    | _, _ => takeTrap c x Ev.priv 0#32 s) s)

end Sys2Proof.Machine
end

