-- ==== Sys2Proof/Machine/Mem.lean ====
section
/-!
DEFINITION. Loads and stores at core addresses (R104, R105, R108, R119).
-/
namespace Sys2Proof.Machine

open Sys2Proof

/-- LW: Gd := the word at Ga + IMM (R108). -/
def execLw (c : CoreId) (gd ga : Reg) (imm : BitVec 16) (s : State) : Host.Outcome State Fault Refusal :=
  .next (loadOp c gd 4 (addrGa ga imm) (fun v => v) s)

/-- LH: Gd := the sign-extended halfword at Ga + IMM (R108). -/
def execLh (c : CoreId) (gd ga : Reg) (imm : BitVec 16) (s : State) : Host.Outcome State Fault Refusal :=
  .next (loadOp c gd 2 (addrGa ga imm) (fun v => (v.setWidth 16).signExtend 32) s)

/-- LHU: Gd := the zero-extended halfword at Ga + IMM (R108). -/
def execLhu (c : CoreId) (gd ga : Reg) (imm : BitVec 16) (s : State) : Host.Outcome State Fault Refusal :=
  .next (loadOp c gd 2 (addrGa ga imm) (fun v => v) s)

/-- LB: Gd := the sign-extended byte at Ga + IMM (R108). -/
def execLb (c : CoreId) (gd ga : Reg) (imm : BitVec 16) (s : State) : Host.Outcome State Fault Refusal :=
  .next (loadOp c gd 1 (addrGa ga imm) (fun v => (v.setWidth 8).signExtend 32) s)

/-- LBU: Gd := the zero-extended byte at Ga + IMM (R108). -/
def execLbu (c : CoreId) (gd ga : Reg) (imm : BitVec 16) (s : State) : Host.Outcome State Fault Refusal :=
  .next (loadOp c gd 1 (addrGa ga imm) (fun v => v) s)

/-- LWI: Gd := the word at IB + IMM (R108, R119). -/
def execLwi (c : CoreId) (gd : Reg) (imm : BitVec 16) (s : State) : Host.Outcome State Fault Refusal :=
  .next (loadOp c gd 4 (addrIb imm) (fun v => v) s)

/-- SW: the word at Ga + IMM := Gs; a commit point in a device window (R108, R127). -/
def execSw (c : CoreId) (gs ga : Reg) (imm : BitVec 16) (s : State) : Host.Outcome State Fault Refusal :=
  .next (storeOp c 4 false (addrGa ga imm) (fun k => k.reg gs) s)

/-- SH: the halfword at Ga + IMM := Gs; a commit point in a device window (R108, R127). -/
def execSh (c : CoreId) (gs ga : Reg) (imm : BitVec 16) (s : State) : Host.Outcome State Fault Refusal :=
  .next (storeOp c 2 false (addrGa ga imm) (fun k => k.reg gs) s)

/-- SB: the byte at Ga + IMM := Gs; a commit point in a device window (R108, R127). -/
def execSb (c : CoreId) (gs ga : Reg) (imm : BitVec 16) (s : State) : Host.Outcome State Fault Refusal :=
  .next (storeOp c 1 false (addrGa ga imm) (fun k => k.reg gs) s)

/-- SWI: the word at IB + IMM := Gs, never the header (R105, R119). -/
def execSwi (c : CoreId) (gs : Reg) (imm : BitVec 16) (s : State) : Host.Outcome State Fault Refusal :=
  .next (storeOp c 4 true (addrIb imm) (fun k => k.reg gs) s)

end Sys2Proof.Machine
end

