-- ==== Sys2Proof/Machine/Scan.lean ====
section
/-!
DEFINITION. The rest of a cycle (R142, R144): the end of Agree and the entries into Solve, the end of an Emit, the
budgets of non-vital partitions, and the end of a channel's credit.
-/
namespace Sys2Proof.Machine

open Sys2Proof

/-! ### Entry into Solve (R102, R135, R334) -/

/-- The STATION_LOST call (R334), made as a function block call (R116) after the ENTRY record: its record is that of the
write to IB. No instruction retires. An instance that fails step 2 of R116 traps with IB_FAULT at the entry block. -/
def Core.callLost (size entry : Nat) (inst : Word) (k : Core) : Core :=
  if instOk size inst then Core.setIb true inst { k with stack := [(k.pc, k.ib)], pc := BitVec.ofNat 22 entry }
  else { k with run := .trapped, out := some (.trap { code := Ev.ibFault, seq := k.seq, pc := k.pc, addr := inst }) }

/-- A lane at partition entry. A lane that has trapped takes no NMI. -/
def laneEnter (d : PartDesc) (p : PartId) (cycle : Nat) (lost : Bool) (nmi : Option Nat) (k : Core) : Core :=
  let k := Core.feedEntry p cycle (Core.enter d.entry d.rootIb k)
  let k := if lost && d.lostEntry ≠ 0 then Core.callLost (d.sizeMib * 1048576) d.lostEntry d.lostInst k else k
  match nmi with
  | some code => if k.run = .trapped then k else Core.takeNmi d.nmiEntry code k
  | none => k

/-- What a partition stored for an Emit that never came counts for nothing in the next cycle (R362, R396): control words of
CAN entries, of minislots and of status slots. -/
def stalePosts (p : PartId) (s : State) : State :=
  ubEnter p <| canEnter p (modHst (fun h => { h with statCtl := h.statCtl.filter (fun x => ownerOf s (.status x.2.1) ≠ some p) }) s)

/-- A partition enters Solve (R102): the NMI posted for it longest is taken at the entry (R135). -/
def partEnter (t : TriadId) (p : PartId) (s : State) : State :=
  match partDesc s p with
  | none => s
  | some d =>
    let lost := s.parts[p].lostDue
    let s := modPart p (fun x => { x with st := .solving, entered := true, substOut := false, lostDue := false }) s
    let s := modHnd t (fun h => { h with active := none, retn := 0#3, late := Vector.replicate 3 0 }) s
    let (nmi, s) := attachNmi t p (stalePosts p s)
    forEach (laneCores s t) (fun c => modCore c (laneEnter d p s.scn.cycle lost nmi)) s

/-- A partition that runs in a cycle enters its Solve, or waits for the end of its last Emit (R142, R144). -/
def partBegin (t : TriadId) (s : State) : State := match runningPart s t with
  | none => s
  | some p =>
    let s := modPart p (fun x => { x with entered := true }) s
    if s.parts[p].emitting then s else partEnter t p s

/-- Whether the triad's queue stays open at AGREE_END (R226): its partition has USE and enters Solve in this cycle. -/
def svyOpens (s : State) (t : TriadId) : Bool := solves s && match runningPart s t with
  | some p => s.parts[p].svyUse
  | none => false

/-- AGREE_END for the Survey unit: in a cycle that solves there is a round, and the queues of triads without a partition
that uses it are closed (R226, R227). -/
def svyAgree (s : State) : State :=
  if !s.variant.svy then s
  else
    let s := if solves s then modSvy (fun v => { v with round := 1 }) s else s
    svyStart (forEach (fins 5) (fun t s => if svyOpens s t then s else svyClose t 5 s) s)

/-- The non-vital partitions of a core in the order of R19, without those that a trap or R20 has stopped (R156). -/
def nvQueue (s : State) (c : CoreId) : List NvId := (fins 8).filter (fun k =>
  s.nvs[k].st ≠ .none && s.nvs[k].st ≠ .stopped && match nvDesc s k with
    | some d => d.core = c
    | none => false)

/-- The first non-vital partition of an unleashed core starts (R156). A core without a window runs none (R91). -/
def nvBegin (c : CoreId) (s : State) : State :=
  if s.cores[c].st = .unleashed && (quotaBank s.tri.nvqAct[c]).isSome then
    nvStartNext c (modCore c (fun k => { k with nvIdle := nvQueue s c }) s)
  else s

/-! ### AGREE_END (R142, R143) -/

/-- Agree: every bank's input image is written, and SAF and DIO act on it. -/
def agreeAll (s : State) : State :=
  let s := safAgree (rackAgree (ubAgree (forEach (fins 5) heelKick (canAgree (hostAgree s)))))
  { s with pim := { s.pim with substCnt := countSubst s } }

/-- Solve starts in a cycle that solves: the partitions enter (R142, R156). -/
def solveAll (s : State) : State :=
  let s := modScan (fun x => { x with phase := 2#2 }) s
  let s := forEach (fins 16) nvBegin (forEach (fins 5) partBegin s)
  phaseEnd s

/-- The latest end of Agree in TB ticks (R143): 1.0 ms after B, 0.512 µs more for each page of FINAL_PAGES_ACT above 128,
and the carry-over of an activation at this boundary. -/
def agreeBy (s : State) : Nat :=
  s.scn.bTb + 1000 * usT + (s.tri.finalPagesAct.toNat - 128) * 512 / 10 + s.olc.carryUs * usT

/-- AGREE_END (R142): not before the boundary actions have ended, and stamped within the bound of R143. -/
def execAgreeEnd (s : State) : Host.Outcome State Fault Refusal :=
  .next (
    if !s.scn.mode.bounded || s.scn.cycle = 0 || s.scn.agreed then s
    else
      let s := advanceTo (s.scn.bTb + s.scn.bndEnd.toNat * usT) s
      let s := agreeAll s
      let at_ := min s.tb (agreeBy s)
      let s := svyAgree <| modScan (fun x =>
        { x with agreed := true, agreeTb := at_, agreeUs := satOf 16 ((at_ - x.bTb) / usT), phase := 3#2 }) s
      if solves s then solveAll s else s)

/-! ### EMIT_END (R144) -/

/-- An element in its place in a list rising by slot. -/
def insSlot (x : Nat × Nat × Word) : List (Nat × Nat × Word) → List (Nat × Nat × Word)
  | [] => [x]
  | y :: l => if x.2.1 < y.2.1 then x :: y :: l else y :: insSlot x l

/-- The status slots that a partition has stored control words of, in ascending order (R396). -/
def statusSlots (s : State) (p : PartId) : List (Nat × Nat × Word) :=
  (s.hst.statCtl.filter (fun x => ownerOf s (.status x.2.1) = some p)).foldl (fun l x => insSlot x l) []

/-- A vital owner's status slots are posted (R396). -/
def statusEmit (p : PartId) (s : State) : State :=
  let mine := statusSlots s p
  let s := modHst (fun h => { h with statCtl := h.statCtl.filter (fun x => !mine.any (fun m => m.2.1 = x.2.1)) }) s
  forEach mine (fun x s => if bit x.2.2 31 then postStatus 1 x.2.1 p.val (x.2.2.setWidth 16) s else s) s

/-- What Emit makes available (R144, R151): in a stepped cycle no CAN frame and no Ubuno slot. -/
def emitOut (p : PartId) (s : State) : State :=
  let hold := s.parts[p].emitStepped
  statusEmit p (rackEmit p (canEmit p hold (ubEmit p hold s)))

/-- EMIT_END (R144). A partition that waited for it enters Solve. -/
def execEmitEnd (p : PartId) (s : State) : Host.Outcome State Fault Refusal :=
  .next (
    if !s.parts[p].emitting then s
    else
      let s := modPart p (fun x => { x with emitting := false }) (emitOut p s)
      match triadOf s p with
      | some t => if s.parts[p].entered && s.parts[p].st = .ready then partEnter t p s else s
      | none => s)

/-! ### Expiries -/

/-- NV_BUDGET_EXPIRY (R156): the partition is cut and the next on its core starts. -/
def execNvBudgetExpiry (k : NvId) (s : State) : Host.Outcome State Fault Refusal :=
  .next (
    let b := s.nvs[k].budgetAct.toNat
    match (fins 16).find? (fun c => s.cores[c].nv = some k) with
    | some c =>
      if s.nvs[k].st ≠ .running || b = 0 then s
      else
        let s := advanceTo (s.cores[c].nvSince + b * usT) s
        nvEnd c k .cut (nvEventFor Ev.nvOverrun (nvWho k) (w32 (8 + k.val)) 0#32 s)
    | none => s)

/-- CREDIT_EXPIRY (R55 item 4, R56): the boundary that ends the last cycle of the credit. A channel that a hold-over
takes over at that boundary goes on (R422). -/
def execCreditExpiry (ch : Chan) (s : State) : Host.Outcome State Fault Refusal :=
  .next (match s.dio.outs[ch].credit with
    | some c =>
      if c ≤ s.scn.cycle && !(s.dio.outs[ch].emitsOn && s.rck.holdOver = some (s.scn.cycle + 1)) then
        refreshCodes (modOut ch (fun o => { o with credit := none }) (advanceTo s.scn.nextB s))
      else s
    | none => s)

end Sys2Proof.Machine
end

