-- ==== Sys2Proof/Machine/SigInstr.lean ====
section
/-!
DEFINITION. Signal loads and stores (R108, R110, R112 to R114, R170).
-/
namespace Sys2Proof.Machine

open Sys2Proof

/-- What a signal load returns (R180). -/
def sigVal (x : CoreCtx) (s : State) (g : Sig) : Word := pimLoad s x.bank x.reader g

/-- The inverse of a Boolean. -/
def sigNot (x : CoreCtx) (s : State) (g : Sig) : Word := pimLoad s x.bank x.reader g ^^^ 1#32

/-- The quality word of a signal (R170). -/
def sigQual (x : CoreCtx) (s : State) (g : Sig) : Word := pimQuality s x.bank x.reader g

/-- LDW: G := a word signal (R108, R110, R112). -/
def execLdw (c : CoreId) (g : Reg) (addr : BitVec 19) (s : State) : Host.Outcome State Fault Refusal :=
  .next (sigLoadOp c g (sigW addr) sigVal s)

/-- LDB: G := a Boolean signal (R108, R110, R112). -/
def execLdb (c : CoreId) (g : Reg) (addr : BitVec 23) (s : State) : Host.Outcome State Fault Refusal :=
  .next (sigLoadOp c g (sigB addr) sigVal s)

/-- LDBN: G := the inverse of a Boolean signal (R108, R110, R112). -/
def execLdbn (c : CoreId) (g : Reg) (addr : BitVec 23) (s : State) : Host.Outcome State Fault Refusal :=
  .next (sigLoadOp c g (sigB addr) sigNot s)

/-- LDBX: Gd := the Boolean signal at address Ga (R108, R110, R112). -/
def execLdbx (c : CoreId) (g ga : Reg) (s : State) : Host.Outcome State Fault Refusal :=
  .next (sigLoadOp c g (sigX false ga) sigVal s)

/-- LDWX: Gd := the word signal at address Ga (R108, R110, R112). -/
def execLdwx (c : CoreId) (g ga : Reg) (s : State) : Host.Outcome State Fault Refusal :=
  .next (sigLoadOp c g (sigX true ga) sigVal s)

/-- LDQ: Gd := the quality word of the Boolean signal at address Ga (R108, R110, R112). -/
def execLdq (c : CoreId) (g ga : Reg) (s : State) : Host.Outcome State Fault Refusal :=
  .next (sigLoadOp c g (sigX false ga) sigQual s)

/-- LDWQ: Gd := the quality word of the word signal at address Ga (R108, R110, R112). -/
def execLdwq (c : CoreId) (g ga : Reg) (s : State) : Host.Outcome State Fault Refusal :=
  .next (sigLoadOp c g (sigX true ga) sigQual s)

/-- STW: a word signal := G (R108, R110, R113, R114). -/
def execStw (c : CoreId) (g : Reg) (addr : BitVec 19) (s : State) : Host.Outcome State Fault Refusal :=
  .next (sigStoreOp c (sigW addr) (fun k => k.reg g) s)

/-- STB: a Boolean signal := (G ≠ 0) (R108, R110, R113, R114). -/
def execStb (c : CoreId) (g : Reg) (addr : BitVec 23) (s : State) : Host.Outcome State Fault Refusal :=
  .next (sigStoreOp c (sigB addr) (fun k => k.reg g) s)

/-- STBN: a Boolean signal := NOT (G ≠ 0) (R108, R110, R113, R114). -/
def execStbn (c : CoreId) (g : Reg) (addr : BitVec 23) (s : State) : Host.Outcome State Fault Refusal :=
  .next (sigStoreOp c (sigB addr) (fun k => b2w (k.reg g = 0#32)) s)

/-- STBX: the Boolean signal at address Ga := (Gs ≠ 0) (R108, R110, R113, R114). -/
def execStbx (c : CoreId) (g ga : Reg) (s : State) : Host.Outcome State Fault Refusal :=
  .next (sigStoreOp c (sigX false ga) (fun k => k.reg g) s)

/-- STWX: the word signal at address Ga := Gs (R108, R110, R113, R114). -/
def execStwx (c : CoreId) (g ga : Reg) (s : State) : Host.Outcome State Fault Refusal :=
  .next (sigStoreOp c (sigX true ga) (fun k => k.reg g) s)

end Sys2Proof.Machine
end

