-- ==== Sys2Proof/Machine/SelfTest.lean ====
section
/-!
DEFINITION. The full self-test (R475, R487, R490 to R492): the order and times of its parts, the block under test and its
isolation, the reset of a block after its test, the record and the events of its end.
-/
namespace Sys2Proof.Machine

open Sys2Proof

def modBst (f : Bst → Bst) (s : State) : State := { s with bst := f s.bst }

/-- The block ID of BST as ARG_A (R471). -/
def bstArg : Word := 0x10#32

/-- The cores of the variant. -/
def coresOf (s : State) : List CoreId := (fins 16).filter (fun c => decide (c.val < s.variant.cores))

/-! ### Order and times (R492) -/

/-- A time of R492 shared by the blocks that its row names, in the row's order: a choice of the model (log entry 55). -/
def testShare (ms : Nat) (ids : List Byte) : List (Byte × Nat) := ids.map (fun b => (b, ms * msT / ids.length))

/-- The parts of the full self-test: the block ID under test, 0xFF for none, and the time in TB ticks. The blocks that a
variant lacks are skipped, and the times are those of the TRV-16 (log entry 55). -/
def testParts (v : Variant) : List (Byte × Nat) :=
  [(0xFF#8, msT), (0xFF#8, 10 * msT), (0xFF#8, 20 * msT), (0xFF#8, 320 * msT), (2#8, 200 * msT)] ++
  testShare 300 [3#8, 4#8, 5#8, 15#8, 14#8] ++ (if v.svy then [(6#8, 400 * msT)] else []) ++
  [(2#8, 600 * msT), (2#8, 20000 * msT)] ++ testShare 150 (if v.dio then [7#8, 8#8] else [8#8]) ++
  testShare 250 ([9#8] ++ (if v.ubb then [10#8] else []) ++ [11#8]) ++
  [(13#8, 100 * msT), (17#8, 50 * msT), (1#8, 50 * msT), (18#8, 20 * msT), (12#8, 100 * msT)]

/-- The part that runs `n` ticks after the beginning: the last one until the test ends. -/
def testPartAt : List (Byte × Nat) → Nat → Nat
  | x :: y :: l, n => if n < x.2 then 0 else testPartAt (y :: l) (n - x.2) + 1
  | _, _ => 0

/-- The time of the whole test. -/
def testLen (v : Variant) : Nat := ((testParts v).map (·.2)).sum

/-- FAIL_BLOCKS bits of the blocks that the test covers on a variant: those of its parts, and BST (R491, R492). -/
def testedBlocks (v : Variant) : BitVec 32 :=
  (testParts v).foldl (fun (m : BitVec 32) x => if x.1 = 0xFF#8 then m else bitSet m x.1.toNat true) (1#32 <<< 16)

/-! ### A block after its test (R490) -/

/-- The clocks after the test of their block: the dividers, gates, windows and settings at reset. XO, IO, the PLLs and the
ring oscillators lie outside the test (R493), and what the monitor says of them stays. -/
def clkReset (c : Clk) : Clk :=
  { Clk.init with
    srcIo := c.srcIo, switchTo := c.switchTo, xoStable := c.xoStable, xoInRange := c.xoInRange, xoFailed := c.xoFailed,
    ioOk := c.ioOk, lockT := c.lockT, lockS := c.lockS, lockC := c.lockC, escape := c.escape, noRefFrom := c.noRefFrom,
    monSeen := c.monSeen, stopped := c.stopped, rsi := c.rsi, rsiMin := c.rsiMin }

/-- A block, by ID, at its reset state with its RAMs cleared. What stands outside the logic under test stays: the pins, the
link and the endpoint, the mode, and what START has found in the Logbook with the counts to be written there
(log entry 37). -/
def blockReset (b : Byte) (s : State) : State :=
  let r := State.resetOf s.variant s.nv s.pending
  match b.toNat with
  | 1 => { s with clk := clkReset s.clk }
  | 2 => { s with tri := r.tri, triads := r.triads }
  | 3 => { s with scn := { r.scn with mode := s.scn.mode, prev := s.scn.prev, cause := s.scn.cause }, parts := r.parts,
                  nvs := r.nvs, absent := r.absent }
  | 4 => { s with pim := r.pim }
  | 5 => { s with olc := r.olc }
  | 6 => { s with svy := r.svy }
  | 7 => { s with dio := r.dio }
  | 8 => { s with saf := r.saf }
  | 9 => { s with ub := vset s.ub 0 { r.ub[0] with sfpA := s.ub[0].sfpA, sfpB := s.ub[0].sfpB } }
  | 10 => { s with ub := vset s.ub 1 { r.ub[1] with sfpA := s.ub[1].sfpA, sfpB := s.ub[1].sfpB } }
  | 11 => { s with can := r.can }
  | 12 => { s with hst := { r.hst with
      link := s.hst.link, pcie := s.hst.pcie, sd := s.hst.sd, stopped := s.hst.stopped, scanOpen := s.hst.scanOpen,
      msix := s.hst.msix, pba := s.hst.pba, sent := s.hst.sent } }
  | 13 => { s with rck := { r.rck with sid := s.rck.sid, peer := s.rck.peer } }
  | 14 => { s with crc := r.crc, crcCap := r.crcCap }
  | 15 => { s with err := r.err }
  | 17 => { s with log := { s.log with wfail := false, lost := if s.scn.mode = .shutdown then 0#8 else s.log.lost,
                                       bad := s.scn.mode ≠ .shutdown && s.log.bad } }
  | _ => s

/-- The parts from number `i` to before number `k` have ended: their blocks are reset. -/
def partsEnded (i k : Nat) (s : State) : State :=
  forEach (((testParts s.variant).take k).drop i) (fun x => blockReset x.1) s

/-! ### Beginning, progress -/

/-- A full self-test begins (R488, R492). The lowest and highest ring-speed index start from the last window. -/
def testBegin (s : State) : State :=
  modBst (fun b => { b.quiet with
    testFrom := some s.tb, rsiLo := satOf 16 (rsiLow s),
    rsiHi := satOf 16 (max s.clk.rsi[(0 : Fin 3)].toNat (max s.clk.rsi[(1 : Fin 3)].toNat s.clk.rsi[(2 : Fin 3)].toNat)) }) s

/-- The words of a block's registers. -/
def blockWords (s : State) (b : Byte) : List Word :=
  if b = 0xFF#8 then [] else (List.range 512).map (fun i => readReg s (0x800 * b.toNat + 4 * i))

/-- A test ends before its time: its block is no longer isolated, and is reset (R490). -/
def testCut (s : State) : State :=
  let b := s.bst.block
  blockReset b (modBst Bst.quiet s)

/-- Another part begins: the blocks of the parts that have ended are reset, the block of this one is isolated, and the ring
engine's test at shut-down ends its work for good (R398, R490). -/
def partBegins (k : Nat) (s : State) : State :=
  let s := partsEnded s.bst.part k (modBst (fun b => { b with block := 0xFF#8, held := [] }) s)
  let b := ((testParts s.variant)[k]?.map (·.1)).getD 0xFF#8
  let s := if b = 0x0C#8 && s.scn.mode = .shutdown then modHst (fun h => { h with stopped := true }) s else s
  modBst (fun x => { x with part := k, block := b, held := blockWords s b }) s

/-- The progress of a running test (R474, R497): the block under test, and the part of the time of R492 that has passed. BST
looks at it at every tick of an idle block and in every ring-speed window (log entry 55). -/
def testTurn (s : State) : State := match s.bst.testFrom with
  | none => s
  | some t0 =>
    let k := testPartAt (testParts s.variant) (s.tb - t0)
    let s := if s.bst.part < k then partBegins k s else s
    modBst (fun b => { b with pct := BitVec.ofNat 8 (min 99 (100 * (s.tb - t0) / testLen s.variant)) }) s

/-! ### Results -/

/-- The record of a full self-test (R475, R476). `result` is 1 PASS, 2 FAIL, 3 INVALID_CONDITIONS. -/
def testRec (kind result : Nat) (temp : BitVec 16) (blocks : BitVec 32) (cores : BitVec 16) (s : State) : State :=
  writeRec { TestRec.init with
    format := 1#32, result := BitVec.ofNat 8 result, kind := BitVec.ofNat 8 kind, poh := pohNow s,
    fw := Config.firmware, serial := Config.serial.setWidth 32, rsiMin := s.bst.rsiLo, rsiMax := s.bst.rsiHi,
    temp := temp, failBlocks := blocks, failCores := cores } s

/-- The record of a test that has met INVALID_CONDITIONS: it names no failed part. -/
def invalidRec (kind : Nat) (temp : BitVec 16) (s : State) : State := testRec kind 3 temp 0#32 0#16 s

/-- The result as the test can have it: once the part after the check of the secrets has begun, the check has passed
(R487, R492; log entry 55). -/
def SelfTest.inTime (r : SelfTest) (s : State) : SelfTest := { r with secretsOk := r.secretsOk || decide (1 ≤ s.bst.part) }

/-- The logic blocks that a test found bad: none where the secret check failed, for then no scan runs (R487). -/
def SelfTest.bad (r : SelfTest) (v : Variant) : BitVec 32 := if r.secretsOk then r.blocks &&& testedBlocks v else 0#32

/-- FAIL_BLOCKS of a test: a failed secret check marks KEY, a failed ROM check BST (R487, R491). -/
def SelfTest.failed (r : SelfTest) (v : Variant) : BitVec 32 :=
  if !r.secretsOk then 1#32 <<< 18 else if r.romOk then r.bad v else bitSet (r.bad v) 16 true

/-- The cores of the variant that a test found bad (R487, R492). -/
def SelfTest.badCores (r : SelfTest) (v : Variant) : BitVec 16 :=
  if r.secretsOk then r.cores &&& BitVec.ofNat 16 (2 ^ v.cores - 1) else 0#16

/-- A failed core in KENNEL, with code 0x2 (R482, R483). -/
def coreFailed (c : CoreId) (s : State) : State := modCore c (fun _ => { Core.init with st := .kennel, ken := .failed }) s

/-- The first block of a set, by ID. -/
def firstBlock (b : BitVec 32) : Nat := ((List.range 32).find? (fun i => bit b i)).getD 0

/-- What the end of a full self-test leaves besides the record: the signature, the events, the failed cores (R491,
R496, R502, R503). -/
def testEvents (r : SelfTest) (s : State) : State :=
  let blocks := r.failed s.variant
  let s := modBst (fun b => { b with sig := if r.bad s.variant = 0#32 then 0#64 else r.misr, temp := r.temp }) s
  let s := if blocks = 0#32 then logModule 13 (nvEvent Ev.bstPass bstArg 0#32 s)
    else logModule 14 (nvEvent Ev.bstFail (w32 (firstBlock blocks)) 0#32 s)
  forEach ((coresOf s).filter (fun c => bit (r.badCores s.variant) c.val)) (fun c s =>
    nvEvent Ev.bstCoreFail (w32 c.val) 0#32 (logCore c 7 (coreFailed c s))) s

/-- The scan has run: every block is reset, the banks hold zero with valid ECC, and the latch of scan enable is open
(R487, R490, R492). -/
def scanned (s : State) : State :=
  let r := State.resetOf s.variant s.nv s.pending
  let s := partsEnded s.bst.part (testParts s.variant).length (modBst Bst.quiet s)
  modHst (fun h => { h with scanOpen := true })
    { s with cores := r.cores, banks := r.banks, ecc := r.ecc, eccSoft := r.eccSoft }

/-- The full self-test ends under valid conditions: the record is written, the events raised. -/
def testEnd (kind : Nat) (r : SelfTest) (s : State) : State :=
  let r := r.inTime s
  let s := if r.secretsOk then scanned s else modBst Bst.quiet s
  let v := s.variant
  testEvents r (testRec kind (if r.failed v = 0#32 then 1 else 2) r.temp (r.failed v) (r.badCores v) s)

end Sys2Proof.Machine
end

