-- ==== Sys2Proof/Machine/Start.lean ====
section
/-!
DEFINITION. START from power-on to B of cycle 1 (R473 to R486): the kind of start, its test, the loading and checking of
the image, the keys, the formation of triads. And SHUTDOWN's test (R487 to R490), and the ring-speed windows (R445).
-/
namespace Sys2Proof.Machine

open Sys2Proof

/-! ### Power-on (R473) -/

/-- Power-on and hardware reset: everything volatile at its reset value, PLL-T locked to IO, the Logbook judged and the
test record read. What the pins and the SFP cages show stays, and so do the numbers of the free draws. -/
def powerUp (cause : Nat) (s : State) : State :=
  let r := State.resetOf s.variant s.nv s.pending
  let n : State := { r with nonceDraws := s.nonceDraws, freeDraws := s.freeDraws,
                            rck := { r.rck with sid := s.rck.sid },
                            ub := vgen 2 (fun b => { r.ub[b] with sfpA := s.ub[b].sfpA, sfpB := s.ub[b].sfpB }) }
  let n := modClk (fun c => { c with lockT := true, lockS := true, lockC := true }) n
  let n := modBst (fun b => { b with ph := .clock, used := recUsed n, autorun := n.nv.autorun, maxAge := n.nv.maxAge,
                                     forceFull := n.nv.forceFull }) n
  logModule cause (logJudge n)

/-- POWER_ON (R473). -/
def execPowerOn (s : State) : Host.Outcome State Fault Refusal := .next (powerUp 1 s)

/-- HARDWARE_RESET (R473): as power-on; the Logbook counts it apart (R502). -/
def execHardwareReset (s : State) : Host.Outcome State Fault Refusal := .next (powerUp 2 s)

/-- VL_INTERRUPTION (R518): the module restarts as at power-on. -/
def execVlInterruption (s : State) : Host.Outcome State Fault Refusal := .next (powerUp 1 s)

/-! ### The kind of start (R478, R481) -/

/-- The cores that the quick check of START checks (R482). -/
def quickCores (s : State) : List CoreId := (coresOf s).filter (fun c => !bit (recBase s).failCores c.val)

/-- An attempt that meets INVALID_CONDITIONS in START: again 1 s later (R481). A full self-test counts in module counter
15, with its record written (R502); the quick check counts for each core that it checks (R503). -/
def startInvalid (quick : Bool) (temp : BitVec 16) (s : State) : State :=
  let s := modBst (fun b => { b with ph := .retry, wait := true, retryAt := s.tb + secT, retryQuick := quick }) (testCut s)
  invalidOnce bstArg (if quick then forEach (quickCores s) (fun c => logCore c 4) s else logModule 15 (invalidRec 2 temp s))

/-- The test or check of START begins if the conditions hold (R480). -/
def startTest (quick : Bool) (s : State) : State :=
  let s := modBst (fun b => { b with wait := false }) (if quick then s else testBegin s)
  if testCond s then modBst (fun b => { b with ph := if quick then .quick else .full }) s
  else startInvalid quick s.bst.temp s

/-- The age of a record in hours (R477). Of a record from before a Logbook reset it wraps (log entry 128). -/
def recAge (r : TestRec) (s : State) : Word := pohNow s - r.poh

/-- Whether the age of a record is at most MAX_AGE: not if the Logbook has been reset since (R478, R500). BST_CFG is the one
that this START found (R497). -/
def ageOk (r : TestRec) (s : State) : Bool :=
  decide (r.poh.toNat ≤ (pohNow s).toNat) && decide ((recAge r s).toNat ≤ s.bst.maxAge.toNat)

/-- REASON (R478): the first condition that fails, 0 for a quick start. -/
def startReason (s : State) : Nat := match recUsed s with
  | none => 1
  | some r =>
    if r.result ≠ 1#8 then 2
    else if !ageOk r s then 3
    else if r.fw ≠ Config.firmware || r.serial ≠ Config.serial.setWidth 32 then 4
    else if s.bst.forceFull then 5 else 0

/-- The record is read and the kind of start chosen (R476, R477, R478). -/
def chooseKind (s : State) : State :=
  let reason := startReason s
  let age := match recUsed s with
    | some r => recAge r s
    | none => 0#32
  let s := if reason = 1 then nvEvent Ev.bstRecordBad bstArg 0#32 s else s
  let s := modBst (fun b => { b with reason := BitVec.ofNat 4 reason, age := age,
                                     start := if reason = 0 then 1#2 else 2#2 }) s
  if reason = 0 then startTest true (logModule 11 (nvEvent Ev.bstQuickStart bstArg 0#32 s))
  else startTest false (logModule 12 (nvEvent Ev.bstFullStart bstArg (w32 reason) s))

/-- XO_STABLE (R431): XO is stable, unless the last monitor window was out of range. In START the reference moves to XO as soon as XO is stable (R481); later a boundary decides
(R435). -/
def execXoStable (s : State) : Host.Outcome State Fault Refusal :=
  .next (
    if s.clk.monSeen && !s.clk.xoInRange then s else
    let s := modClk (fun c => { c with xoStable := true, xoInRange := true }) s
    if s.scn.mode ≠ .start || s.bst.ph = .off then s
    else
      let s := switchToXo s
      if s.bst.ph = .clock then chooseKind s else s)

/-- XO_START_TIMEOUT (R431): 100 ms after power-on START goes on from IO. -/
def execXoStartTimeout (s : State) : Host.Outcome State Fault Refusal :=
  .next (
    if s.bst.ph = .clock then
      chooseKind (xoFailEvent (s.clk.monCount.setWidth 32)
        (modClk (fun c => { c with xoFailed := true }) (advanceTo (100 * msT) s)))
    else s)

/-- TEST_CONDITION_RETRY (R481). -/
def execTestConditionRetry (s : State) : Host.Outcome State Fault Refusal :=
  .next (if s.bst.ph = .retry then startTest s.bst.retryQuick (advanceTo s.bst.retryAt s) else s)

/-! ### The quick check and the full self-test (R482, R483, R490) -/

/-- One core at the end of the quick check (R482). -/
def quickEndCore (r : KResult) (c : CoreId) (s : State) : State :=
  if bit (recBase s).failCores c.val then coreFailed c s
  else match r with
  | .fail => kenEnter false false c (logCore c 3 s)
  | _ => logCore c 2 s

/-- QUICK_CHECK_END (R482). A check that met INVALID_CONDITIONS is tried again with all of them (R481). -/
def execQuickCheckEnd (r : Vector KResult 16) (s : State) : Host.Outcome State Fault Refusal :=
  .next (
    if s.bst.ph ≠ .quick then s
    else if (quickCores s).any (fun c => decide (r[c] = .invalid)) then startInvalid true s.bst.temp s
    else modBst (fun b => { b with ph := .load }) (forEach (coresOf s) (fun c => quickEndCore r[c] c) s))

/-- START_SELF_TEST_END (R483). -/
def execStartSelfTestEnd (r : SelfTest) (s : State) : Host.Outcome State Fault Refusal :=
  .next (
    if s.bst.ph ≠ .full then s
    else if !r.conditions then startInvalid false r.temp s
    else
      let r := r.inTime s
      let s := testEnd 2 r s
      if r.failed s.variant ≠ 0#32 then failStart Ev.bstFail s
      else { modBst (fun b => { b with ph := .load }) s with nv := { s.nv with forceFull := false } })

/-! ### The image (R173, R296, R473) -/

/-- A signal of the door loop application as a Gazetteer entry (log entry 15). -/
def dlaGaz (g : Sig) : GazEntry :=
  { path := "DLA/" ++ toString g.key, sig := some g, hash := 0#32, version := 0, inst := false, library := false,
    chart := false, part := 0, head := 0, ofs := 0, bytes := 0, safe := 0#32, subst := .safe, vitalOut := g = ⟨false, 0x100000⟩ ||
    g = ⟨false, 0x100001⟩ }

/-- The signals of the door loop application: inputs, reset pulse, status words, outputs (log entry 15). -/
def dlaSigs : List Sig :=
  (List.range 49).map (fun n => ⟨false, n⟩) ++ (List.range 28).map (fun n => ⟨true, n⟩) ++
  [0, 1, 4].map (fun n => ⟨false, 0x100000 + n⟩)

/-- P0 of the door loop application (R296, R299). Where its region and code lie, the spec does not say (log entry 15). -/
def dlaPart : PartImage :=
  { desc := { baseMib := 0, sizeMib := 1, progWords := 1100, entry := 0, rootIb := 0x40010000#32, nmiEntry := 0,
              isolated := false, svyUse := false, svyOfs := 0, svyLen := 0, lostEntry := 0, lostInst := 0#32,
              jobs := [], canAreas := [] },
    program := (List.range 1100).map Config.dlaWord, data := [], ints := [], heads := [] }

/-- The door loop application as an image (R296, R297). -/
def dlaImage : Image :=
  { Image.blank with
    tcyc := some 100, safeExit := some true, parts := vset (Vector.replicate 5 none) 0 (some dlaPart),
    gaz := dlaSigs.map dlaGaz,
    owners := [0, 1, 4].map (fun n => ⟨.signal ⟨false, 0x100000 + n⟩, 0⟩),
    io := { IoDesc.blank with
      ins := vgen 48 (fun n => dlaInDesc n.val), outs := vgen 24 (fun n => dlaOutDesc n.val),
      sbcs := vgen 4 (fun k => ⟨none, some (24 + k.val)⟩) },
    safety := dlaSafety }

/-- The image that START loads: that of the program store, or the door loop application where there are local channels
(R204, R296). -/
def startImage (s : State) : Option Image := match s.nv.store with
  | some im => some im
  | none => if s.variant.dio then some dlaImage else none

/-- A signal at its safe value in every copy (R173). -/
def safeSig (e : GazEntry) (s : State) : State := match e.sig with
  | none => s
  | some g => match g.area with
    | .internal => s
    | .output => setCpy g e.safe (setCur g e.safe s)
    | .boundary => setCpy g e.safe (setCur g e.safe s)
    | _ => setCur g e.safe s

/-- Regions, internal signals and tables of an image in the banks (R14, R473), and every other signal safe (R173). -/
def imageIn (im : Image) (s : State) : State :=
  let s := forEach (fins 5) (fun p s => match im.parts[p] with
    | some x => loadInts p x (loadRegion x s)
    | none => s) s
  let s := { s with svy := { s.svy with table := Vector.replicate 3 im.chart } }
  forEach im.gaz safeSig s

/-- IMAGE_LOAD_END (R473): the banks hold the image and zero elsewhere. -/
def execImageLoadEnd (s : State) : Host.Outcome State Fault Refusal :=
  .next (
    if s.bst.ph ≠ .load then s
    else
      let im := startImage s
      let s := { s with banks := Vector.replicate 3 [], ecc := Vector.replicate 3 [], eccSoft := Vector.replicate 3 [],
                        olc := s.olc.setActive im,
                        saf := { s.saf with dlaActive := s.nv.store.isNone && s.variant.dio } }
      let s := match im with
        | some im => imageIn im s
        | none => s
      let s := if s.saf.dlaActive then { s with saf := { s.saf with dlaSt := 0x80000000#32 } } else s
      modBst (fun b => { b with ph := .check }) s)

/-- The settings of a CAN channel's descriptor as shadows (R373). -/
def canDescSh (d : CanDesc) (x : Can) : Can :=
  { x with cfgSh := d.cfg.setWidth 5, nbtSh := canNbt d.nbt x.nbtSh, dbtSh := d.dbt &&& 0x1F1F0F0F#32,
           tdcSh := d.tdc &&& 0x7F7F#32 }

/-- What START configures from an image, to take effect at B of cycle 1. That an image may carry T_cyc and SAFE_EXIT, as that
of the door loop application does (R297), and the mode of a check-value unit that the host has left OFF, is a choice of the
model (log entry 118); a T_cyc that SCN_TCYC would not take is not taken (R139). -/
def configure (im : Image) (s : State) : State :=
  let s := if s.variant.dio then dioLoad im.io s else s
  let s := safLoad im.safety s
  let s := { s with ub := vgen 2 (fun b => { s.ub[b] with lay := im.io.ub[b].layout.masked }),
                    can := vgen 4 (fun c => canDescSh im.io.can[c] s.can[c]),
                    crc := vgen 8 (fun u => { s.crc[u] with modeSh :=
                      if s.crc[u].modeSh = 0#2 then BitVec.ofNat 2 im.crcMode[u].val else s.crc[u].modeSh }) }
  let s := match im.tcyc with
    | some n => if 10 ≤ n ∧ n ≤ 10000 then modScan (fun x => { x with tcycSh := BitVec.ofNat 14 n }) s else s
    | none => s
  let s := match im.safeExit with
    | some b => modScan (fun x => { x with safeExitSh := b }) s
    | none => s
  let s := { s with parts := vgen 5 (fun p => match im.parts[p] with
      | some x => { s.parts[p] with st := .ready, isolated := x.desc.isolated, svyUse := x.desc.svyUse }
      | none => s.parts[p]) }
  { s with nvs := vgen 8 (fun k => if im.nvs[k].isSome then { s.nvs[k] with st := .waiting } else s.nvs[k]) }

/-- IMAGE_CHECK_END (R473): SVY_TABLE_BAD if the tables fail (R223). Then the keys load (R486), which closes the latch of
scan enable (R487). -/
def execImageCheckEnd (s : State) : Host.Outcome State Fault Refusal :=
  .next (
    if s.bst.ph ≠ .check then s
    else
      let s := match s.olc.active with
        | some im =>
          let tables := chartOk im
          let s := if tables then s else nvEvent Ev.svyTableBad 0#32 0#32 s
          modScan (fun x => { x with imageValid := tables && imageOk s im }) (configure im s)
        | none => modScan (fun x => { x with imageValid := false }) s
      modBst (fun b => { b with ph := .keys }) (modHst (fun h => { h with keyStat := 1#2, scanOpen := false }) s))

/-! ### Keys (R486) -/

/-- Whether a sealed key meets the CRC-32C stored with it. -/
def keyGood : Option (List Byte × Word) → Bool
  | some (key, crc) => crc32c key = crc
  | none => true

/-- KEY_LOAD_END (R486). -/
def execKeyLoadEnd (s : State) : Host.Outcome State Fault Refusal :=
  .next (
    if s.bst.ph ≠ .keys then s
    else
      let good := (fins 8).all (fun k => keyGood s.nv.sealed[k])
      let s := if good then
          modHst (fun h => { h with slots := vmap (fun x => x.map (·.1)) s.nv.sealed, keyStat := 2#2 }) s
        else
          nvEvent Ev.keyStoreFail 0x12#32 0#32
            (modHst (fun h => { h with slots := Vector.replicate 8 none, keyStat := 3#2 })
              { s with nv := { s.nv with sealed := Vector.replicate 8 none } })
      let s := modHst (fun h => { h with nonce := Config.nonce s.nonceDraws, keys := true }) s
      modBst (fun b => { b with ph := .ready }) { s with nonceDraws := s.nonceDraws + 1 })

/-! ### The formation of triads and the end of START (R16, R484) -/

/-- The core that the default grouping puts in a lane of a triad (R16). -/
def groupCore (t : TriadId) (l : Lane) : CoreId := ⟨3 * t.val + l.val, by omega⟩

/-- The members of the default grouping that are not in KENNEL. -/
def groupUp (s : State) (t : TriadId) : List CoreId :=
  ((fins 3).map (groupCore t)).filter (fun c => s.cores[c].st ≠ .kennel)

/-- The cores at the beginning of the formation: the last core of the variant waits in RESERVE, and counts as having
waited the longest (R82); those not in KENNEL hold no lane yet. Its hours toward the re-test of R85 count from TB 0: a
choice of the model (log entry 97). -/
def formCores (s : State) : State :=
  { s with cores := vgen 16 (fun c =>
      let k := s.cores[c]
      if s.variant.cores ≤ c.val then { Core.init with st := .absent }
      else if k.st = .kennel then k
      else if c.val + 1 = s.variant.cores then { Core.init with st := .reserve, resSince := 0 }
      else { Core.init with st := .lane }) }

/-- A triad's place in the default grouping (R484): complete with its members and free reserves, or not formed. -/
def formTriad (t : TriadId) (s : State) : State :=
  if s.variant.triads ≤ t.val then modTriad t (fun x => { x with part := none }) s
  else
    let part := if (runImage s).parts[t].isSome then some t else none
    let holes := (fins 3).filter (fun l => s.cores[groupCore t l].st = .kennel)
    let free := freeReserves s
    if free.length < holes.length then
      let s := forEach (groupUp s t) (fun c => modCore c (fun k => { k with st := .reserve, resSince := s.tb, kenAt := s.tb })) s
      modTriad t (fun x => { x with mode := .notFormed, part := part }) s
    else
      let place := fun (l : Lane) => match (holes.zip free).find? (fun x => x.1 = l) with
        | some (_, c) => c
        | none => groupCore t l
      let s := forEach (fins 3) (fun l => toLane (place l)) s
      modTriad t (fun x => { x with mode := if part.isSome then .triad else .idle, part := part,
                                    cores := vgen 3 (fun l => some (place l)) }) s

/-- The formation (R484): a configured partition on a triad that is not formed makes the image not valid, and so does a
check job on a unit that B of cycle 1 does not put in JOBS (R452). -/
def form (s : State) : State :=
  let s := forEach (fins 5) formTriad (formCores s)
  let ok := partsFormed s (runImage s) && jobsOk (runImage s) (fun u => s.crc[u].modeSh = 2#2)
  modScan (fun x => { x with imageValid := x.imageValid && ok }) s

/-- The mode at the end of START (R147). A FATAL event after the test has led to SAFE already (R485). -/
def endMode (s : State) : State :=
  if s.scn.mode ≠ .start then s
  else setMode (if s.bst.autorun && !s.scn.commEn && s.scn.imageValid then .run else .stop) 0 s

/-- START_END (R484, R139): START ends at B of cycle 1, not while a core's full test runs or waits for valid conditions
(R481, log entry 129). A request for SHUTDOWN that SAFE has accepted takes effect at this boundary (R145 step 7, R147). -/
def execStartEnd (b : BoundaryIn) (s : State) : Host.Outcome State Fault Refusal :=
  .next (
    if s.bst.ph ≠ .ready || (fins 16).any (fun c => kenWaits s c || kenRunning s c false) then s
    else
      let s := modBst (fun x => { x with ph := .over, phase := 2#3 }) (form s)
      let s := snapshots b (stampB b s.tb (clkReturn s))
      let s := triSteps (voteNow s) (shadows s)
      let s := dioStart (ubSilence (canStart (ubStart (twinStart (endMode s)))))
      let s := modTri (fun t => { t with scrubFrom := s.tb, scrubPeriod := t.scrubAct }) s
      let s := requestsTurn s.scn.safeThisCycle
        (modScan (fun x => { x with safeThisCycle := false }) s)
      if s.scn.mode = .shutdown then s else armCycle (busTurn s))

/-! ### Shut-down (R487 to R489) -/

/-- The secrets are cleared (R487). -/
def clearSecrets (s : State) : State :=
  modHst (fun h => { h with slots := Vector.replicate 8 none, nonce := 0#64, keys := false, keyStat := 0#2,
                            seqs := Vector.replicate 8 (Vector.replicate 8 0#32), keyStores := [] }) s

/-- The test at shut-down meets INVALID_CONDITIONS: it is not tried again (R489). -/
def shutInvalid (temp : BitVec 16) (s : State) : State :=
  modBst (fun b => { b with phase := 5#3 })
    (logModule 15 (nvEvent Ev.bstInvalidConditions bstArg 0#32 (testCut (invalidRec 1 temp s))))

/-- SHUTDOWN_DRAIN_END (R488). `ok0` and `ok1` are the verdicts of the Logbook update. After a failed start self-test no
test follows, and the record stands (R489). -/
def execShutdownDrainEnd (ok0 ok1 : Bool) (s : State) : Host.Outcome State Fault Refusal :=
  .next (
    if s.scn.mode ≠ .shutdown || s.bst.phase ≠ 3#3 || s.bst.drained then s
    else
      let s := modBst (fun b => { b with drained := true }) (logUpdate ok0 ok1 s)
      if s.bst.noTest then s else
      let s := writeRec { recBase s with result := 5#8, cause := 0#16, poh := pohNow s } s
      let s := testBegin (clearSecrets s)
      if testCond s then modBst (fun b => { b with phase := 4#3 }) s else shutInvalid s.bst.temp s)

/-- SHUTDOWN_TEST_END (R488, R489): the module stays in SHUTDOWN. -/
def execShutdownTestEnd (r : SelfTest) (s : State) : Host.Outcome State Fault Refusal :=
  .next (
    if s.scn.mode ≠ .shutdown || s.bst.phase ≠ 4#3 then s
    else if !r.conditions then shutInvalid r.temp s
    else
      let ran := (r.inTime s).secretsOk
      let s := testEnd 1 r s
      modHst (fun h => { h with stopped := h.stopped || ran }) (modBst (fun b => { b with phase := 5#3 }) s))

/-! ### Ring-speed windows (R445, R480) -/

/-- One lane's verdict on the cycle that has ended (R445): RING_SLOW once for each episode. -/
def slowJudge (l : Lane) (s : State) : State :=
  let slow := s.clk.rsiSeen[l] && !s.clk.rsiOk[l]
  let raise := slow && !s.clk.slowRaised[l]
  let s := modClk (fun c => { c with slowRaised := vset c.slowRaised l (if c.rsiSeen[l] then slow else c.slowRaised[l]),
                                     rsiSeen := vset c.rsiSeen l false, rsiOk := vset c.rsiOk l false }) s
  if raise then nvEvent Ev.ringSlow 0#32 0#32 s else s

/-- The lanes are judged at the first window after a cycle has ended. In START there is no cycle. -/
def slowTurn (s : State) : State :=
  if s.scn.cycle = s.clk.rsiCyc then s
  else
    let s := if s.clk.rsiCyc = 0 then
        modClk (fun c => { c with rsiSeen := Vector.replicate 3 false, rsiOk := Vector.replicate 3 false }) s
      else forEach (fins 3) slowJudge s
    modClk (fun c => { c with rsiCyc := s.scn.cycle }) s

/-- Conditions that fail while a test runs end it (R480). -/
def rsiTests (s : State) : State :=
  if testCond s then s
  else
    let s := match s.bst.ph with
      | .quick => startInvalid true s.bst.temp s
      | .full => startInvalid false s.bst.temp s
      | _ => s
    let s := if s.scn.mode = .shutdown && s.bst.phase = 4#3 then shutInvalid s.bst.temp s else s
    forEach (fins 16) (fun c s => if kenRunning s c true || kenRunning s c false then kenInvalid c s else s) s

/-- The ring-speed index of a number of ring periods in a window (R445). -/
def rsiIndex (periods : Nat) : BitVec 16 := satOf 16 (periods / 4)

/-- The extremes of the index in a running full self-test (R475). -/
def rsiNote (idx : Vector (BitVec 16) 3) (s : State) : State :=
  if s.bst.testFrom.isNone then s
  else forEach (fins 3) (fun l => modBst (fun b =>
    { b with rsiLo := if idx[l].toNat < b.rsiLo.toNat then idx[l] else b.rsiLo,
             rsiHi := if b.rsiHi.toNat < idx[l].toNat then idx[l] else b.rsiHi })) s

/-- RSI_WINDOW (R445): a window of 1,024 ticks ends in every lane, with the ring periods counted in it. -/
def execRsiWindow (periods : Vector Nat 3) (s : State) : Host.Outcome State Fault Refusal :=
  .next (
    let idx := vmap rsiIndex periods
    let s := slowTurn (rsiNote idx (testTurn s))
    let s := modClk (fun c => { c with
      rsi := idx,
      rsiMin := vgen 3 (fun l => if idx[l].toNat < c.rsiMin[l].toNat then idx[l] else c.rsiMin[l]),
      rsiSeen := Vector.replicate 3 true,
      rsiOk := vgen 3 (fun l => c.rsiOk[l] || decide (Config.rsiGuar.toNat ≤ idx[l].toNat)) }) s
    rsiTests s)

end Sys2Proof.Machine
end

