-- ==== Sys2Proof/Machine/Dispatch.lean ====
section
/-!
DEFINITION. The dispatch: one arm per command, each a direct call of its meaning.
-/
namespace Sys2Proof.Machine

open Sys2Proof

/-- A command's effect on everything but the queue. -/
def exec (i : Instr) (s : State) : Host.Outcome State Fault Refusal :=
  match i with
  | .powerOn => Sys2Proof.Machine.execPowerOn s
  | .hardwareReset => Sys2Proof.Machine.execHardwareReset s
  | .vlInterruption => Sys2Proof.Machine.execVlInterruption s
  | .xoStable => Sys2Proof.Machine.execXoStable s
  | .xoStartTimeout => Sys2Proof.Machine.execXoStartTimeout s
  | .quickCheckEnd r => Sys2Proof.Machine.execQuickCheckEnd r s
  | .startSelfTestEnd r => Sys2Proof.Machine.execStartSelfTestEnd r s
  | .testConditionRetry => Sys2Proof.Machine.execTestConditionRetry s
  | .imageLoadEnd => Sys2Proof.Machine.execImageLoadEnd s
  | .imageCheckEnd => Sys2Proof.Machine.execImageCheckEnd s
  | .keyLoadEnd => Sys2Proof.Machine.execKeyLoadEnd s
  | .startEnd b => Sys2Proof.Machine.execStartEnd b s
  | .twinRoleTimeout => Sys2Proof.Machine.execTwinRoleTimeout s
  | .boundary b => Sys2Proof.Machine.execBoundary b s
  | .agreeEnd => Sys2Proof.Machine.execAgreeEnd s
  | .watchdogExpiry => Sys2Proof.Machine.execWatchdogExpiry s
  | .budgetExpiry p => Sys2Proof.Machine.execBudgetExpiry p s
  | .nvBudgetExpiry k => Sys2Proof.Machine.execNvBudgetExpiry k s
  | .creditExpiry ch => Sys2Proof.Machine.execCreditExpiry ch s
  | .commitArrival t l agree => Sys2Proof.Machine.execCommitArrival t l agree s
  | .trapReportArrival t l agree => Sys2Proof.Machine.execTrapReportArrival t l agree s
  | .lagWindowExpiry t => Sys2Proof.Machine.execLagWindowExpiry t s
  | .handlerBudgetExpiry t => Sys2Proof.Machine.execHandlerBudgetExpiry t s
  | .enableDisagreement t => Sys2Proof.Machine.execEnableDisagreement t s
  | .dynCodeReadbackMismatch ch => Sys2Proof.Machine.execDynCodeReadbackMismatch ch s
  | .emitEnd p => Sys2Proof.Machine.execEmitEnd p s
  | .heelPassEnd t => Sys2Proof.Machine.execHeelPassEnd t s
  | .pairLimitExpiry t => Sys2Proof.Machine.execPairLimitExpiry t s
  | .scrubJudge w => Sys2Proof.Machine.execScrubJudge w s
  | .kennelTestEnd c r => Sys2Proof.Machine.execKennelTestEnd c r s
  | .quickKennelCheckEnd t r => Sys2Proof.Machine.execQuickKennelCheckEnd t r s
  | .kennelRetryDue c => Sys2Proof.Machine.execKennelRetryDue c s
  | .reserveRetestDue c => Sys2Proof.Machine.execReserveRetestDue c s
  | .eventDelivery => Sys2Proof.Machine.execEventDelivery s
  | .logUpdate ok0 ok1 => Sys2Proof.Machine.execLogUpdate ok0 ok1 s
  | .logHistoryWrite => Sys2Proof.Machine.execLogHistoryWrite s
  | .surveyCloseAt => Sys2Proof.Machine.execSurveyCloseAt s
  | .surveyResult l t index agree => Sys2Proof.Machine.execSurveyResult l t index agree s
  | .surveyLagExpiry t index => Sys2Proof.Machine.execSurveyLagExpiry t index s
  | .olcCheckEnd v => Sys2Proof.Machine.execOlcCheckEnd v s
  | .olcVerifyEnd ok => Sys2Proof.Machine.execOlcVerifyEnd ok s
  | .olcWaitExpiry => Sys2Proof.Machine.execOlcWaitExpiry s
  | .olcAcceptDone => Sys2Proof.Machine.execOlcAcceptDone s
  | .offPulseVisit => Sys2Proof.Machine.execOffPulseVisit s
  | .offPulseVerdict chains coil => Sys2Proof.Machine.execOffPulseVerdict chains coil s
  | .outOverload ch => Sys2Proof.Machine.execOutOverload ch s
  | .outStuckOn ch chains current => Sys2Proof.Machine.execOutStuckOn ch chains current s
  | .sbcOpenLoad k => Sys2Proof.Machine.execSbcOpenLoad k s
  | .silenceTimeout n => Sys2Proof.Machine.execSilenceTimeout n s
  | .brakeTestEnergiseTimeout k => Sys2Proof.Machine.execBrakeTestEnergiseTimeout k s
  | .brakeTestTimeEnd k => Sys2Proof.Machine.execBrakeTestTimeEnd k s
  | .brakeTestDue k => Sys2Proof.Machine.execBrakeTestDue k s
  | .brakeTestOverdue k => Sys2Proof.Machine.execBrakeTestOverdue k s
  | .feedbackTimeout n => Sys2Proof.Machine.execFeedbackTimeout n s
  | .exerciseExpiry => Sys2Proof.Machine.execExerciseExpiry s
  | .busCycleStart bus => Sys2Proof.Machine.execBusCycleStart bus s
  | .ubunoFrameReceived bus f => Sys2Proof.Machine.execUbunoFrameReceived bus f s
  | .ubunoSlotLaunch bus slot => Sys2Proof.Machine.execUbunoSlotLaunch bus slot s
  | .dynamicFrameSend bus mini => Sys2Proof.Machine.execDynamicFrameSend bus mini s
  | .coldstartListenEnd bus => Sys2Proof.Machine.execColdstartListenEnd bus s
  | .coldstartClaimCycleEnd bus lowerSeen frameError => Sys2Proof.Machine.execColdstartClaimCycleEnd bus lowerSeen frameError s
  | .coldstartBackoffEnd bus => Sys2Proof.Machine.execColdstartBackoffEnd bus s
  | .channelJam bus chan => Sys2Proof.Machine.execChannelJam bus chan s
  | .channelOk bus chanB => Sys2Proof.Machine.execChannelOk bus chanB s
  | .stationLost bus station => Sys2Proof.Machine.execStationLost bus station s
  | .waypoint bus k => Sys2Proof.Machine.execWaypoint bus k s
  | .sfpChange bus chanB usable => Sys2Proof.Machine.execSfpChange bus chanB usable s
  | .canFrameReceived ch f sof => Sys2Proof.Machine.execCanFrameReceived ch f sof s
  | .canTxStart ch => Sys2Proof.Machine.execCanTxStart ch s
  | .canTxEnd ch e suspect => Sys2Proof.Machine.execCanTxEnd ch e suspect s
  | .canErrorDetected ch tx suspect dTec dRec => Sys2Proof.Machine.execCanErrorDetected ch tx suspect dTec dRec s
  | .canIntegration ch => Sys2Proof.Machine.execCanIntegration ch s
  | .canBusOffRecovery ch => Sys2Proof.Machine.execCanBusOffRecovery ch s
  | .canRequestExpiry ch entry => Sys2Proof.Machine.execCanRequestExpiry ch entry s
  | .hostRequestTimeout => Sys2Proof.Machine.execHostRequestTimeout s
  | .rackRead slot r => Sys2Proof.Machine.execRackRead slot r s
  | .rackPartnerRead slot ofs a => Sys2Proof.Machine.execRackPartnerRead slot ofs a s
  | .partnerPresent slot => Sys2Proof.Machine.execPartnerPresent slot s
  | .partnerAbsent slot => Sys2Proof.Machine.execPartnerAbsent slot s
  | .partnerStale slot => Sys2Proof.Machine.execPartnerStale slot s
  | .twBndPulse offsetNs => Sys2Proof.Machine.execTwBndPulse offsetNs s
  | .twinDualActive => Sys2Proof.Machine.execTwinDualActive s
  | .twAliveLoss => Sys2Proof.Machine.execTwAliveLoss s
  | .twEmitPulse => Sys2Proof.Machine.execTwEmitPulse s
  | .holdOverEnd => Sys2Proof.Machine.execHoldOverEnd s
  | .monitorWindow count => Sys2Proof.Machine.execMonitorWindow count s
  | .referenceSwitch => Sys2Proof.Machine.execReferenceSwitch s
  | .stoppedSourceEscape => Sys2Proof.Machine.execStoppedSourceEscape s
  | .ioFail => Sys2Proof.Machine.execIoFail s
  | .holdoverExpiry => Sys2Proof.Machine.execHoldoverExpiry s
  | .refinLost => Sys2Proof.Machine.execRefinLost s
  | .ppsEdge => Sys2Proof.Machine.execPpsEdge s
  | .rsiWindow periods => Sys2Proof.Machine.execRsiWindow periods s
  | .gateClose g => Sys2Proof.Machine.execGateClose g s
  | .gateForce g => Sys2Proof.Machine.execGateForce g s
  | .crcDmaEnd u => Sys2Proof.Machine.execCrcDmaEnd u s
  | .crcJobPassEnd u => Sys2Proof.Machine.execCrcJobPassEnd u s
  | .shutdownDrainEnd ok0 ok1 => Sys2Proof.Machine.execShutdownDrainEnd ok0 ok1 s
  | .shutdownTestEnd r => Sys2Proof.Machine.execShutdownTestEnd r s
  | .linkDown => Sys2Proof.Machine.execLinkDown s
  | .functionLevelReset => Sys2Proof.Machine.execFunctionLevelReset s
  | .busMasterDisable => Sys2Proof.Machine.execBusMasterDisable s
  | .perst => Sys2Proof.Machine.execPerst s
  | .sqTailDoorbell r v => Sys2Proof.Machine.execSqTailDoorbell r v s
  | .cqHeadDoorbell r v => Sys2Proof.Machine.execCqHeadDoorbell r v s
  | .completionDelivery r => Sys2Proof.Machine.execCompletionDelivery r s
  | .ringEnable r v => Sys2Proof.Machine.execRingEnable r v s
  | .ringDisable r v => Sys2Proof.Machine.execRingDisable r v s
  | .absentUnitAccess ofs write => Sys2Proof.Machine.execAbsentUnitAccess ofs write s
  | .unsupportedBar0Access ofs size write => Sys2Proof.Machine.execUnsupportedBar0Access ofs size write s
  | .registerWrite bar2 ofs v => Sys2Proof.Machine.execRegisterWrite bar2 ofs v s
  | .statusClear ofs v => Sys2Proof.Machine.execStatusClear ofs v s
  | .dynFaultClear v => Sys2Proof.Machine.execDynFaultClear v s
  | .outputLatchClear ofs v => Sys2Proof.Machine.execOutputLatchClear ofs v s
  | .canRecover ch => Sys2Proof.Machine.execCanRecover ch s
  | .canClrMax ch => Sys2Proof.Machine.execCanClrMax ch s
  | .xoReturnRequest => Sys2Proof.Machine.execXoReturnRequest s
  | .gateRequest g => Sys2Proof.Machine.execGateRequest g s
  | .gateWithdraw g => Sys2Proof.Machine.execGateWithdraw g s
  | .gateReopen g => Sys2Proof.Machine.execGateReopen g s
  | .crcInit u => Sys2Proof.Machine.execCrcInit u s
  | .crcGo u => Sys2Proof.Machine.execCrcGo u s
  | .crcCheck u => Sys2Proof.Machine.execCrcCheck u s
  | .crcData u v => Sys2Proof.Machine.execCrcData u v s
  | .crcDataB u v => Sys2Proof.Machine.execCrcDataB u v s
  | .solveMaxReset n => Sys2Proof.Machine.execSolveMaxReset n s
  | .roundMaxReset => Sys2Proof.Machine.execRoundMaxReset s
  | .identify r d => Sys2Proof.Machine.execIdentify r d s
  | .runRequest r d => Sys2Proof.Machine.execRunRequest r d s
  | .holdRequest r d => Sys2Proof.Machine.execHoldRequest r d s
  | .stopRequest r d => Sys2Proof.Machine.execStopRequest r d s
  | .shutdownRequest r d => Sys2Proof.Machine.execShutdownRequest r d s
  | .step r d => Sys2Proof.Machine.execStep r d s
  | .resetArm r d => Sys2Proof.Machine.execResetArm r d s
  | .resetCommit r d => Sys2Proof.Machine.execResetCommit r d s
  | .twinHandover r d => Sys2Proof.Machine.execTwinHandover r d s
  | .nvRestart r d => Sys2Proof.Machine.execNvRestart r d s
  | .keyStore r d => Sys2Proof.Machine.execKeyStore r d s
  | .hreqSet r d => Sys2Proof.Machine.execHreqSet r d s
  | .hreqSetDiag r d => Sys2Proof.Machine.execHreqSetDiag r d s
  | .logRead r d => Sys2Proof.Machine.execLogRead r d s
  | .olcBegin r d => Sys2Proof.Machine.execOlcBegin r d s
  | .olcData r d => Sys2Proof.Machine.execOlcData r d s
  | .olcEnd r d => Sys2Proof.Machine.execOlcEnd r d s
  | .olcActivate r d => Sys2Proof.Machine.execOlcActivate r d s
  | .olcDiscard r d => Sys2Proof.Machine.execOlcDiscard r d s
  | .olcRollback r d => Sys2Proof.Machine.execOlcRollback r d s
  | .olcAccept r d => Sys2Proof.Machine.execOlcAccept r d s
  | .olcQuery r d => Sys2Proof.Machine.execOlcQuery r d s
  | .forceSet r d => Sys2Proof.Machine.execForceSet r d s
  | .forceClear r d => Sys2Proof.Machine.execForceClear r d s
  | .forceList r d => Sys2Proof.Machine.execForceList r d s
  | .brkTestNow r d => Sys2Proof.Machine.execBrkTestNow r d s
  | .outExercise r d => Sys2Proof.Machine.execOutExercise r d s
  | .exerciseStop r d => Sys2Proof.Machine.execExerciseStop r d s
  | .nvMsg r d => Sys2Proof.Machine.execNvMsg r d s
  | .illegalInstruction c word => Sys2Proof.Machine.execIllegalInstruction c word s
  | .add c gd ga gb => Sys2Proof.Machine.execAdd c gd ga gb s
  | .sub c gd ga gb => Sys2Proof.Machine.execSub c gd ga gb s
  | .adds c gd ga gb => Sys2Proof.Machine.execAdds c gd ga gb s
  | .subs c gd ga gb => Sys2Proof.Machine.execSubs c gd ga gb s
  | .addus c gd ga gb => Sys2Proof.Machine.execAddus c gd ga gb s
  | .subus c gd ga gb => Sys2Proof.Machine.execSubus c gd ga gb s
  | .mul c gd ga gb => Sys2Proof.Machine.execMul c gd ga gb s
  | .muls c gd ga gb => Sys2Proof.Machine.execMuls c gd ga gb s
  | .mulh c gd ga gb => Sys2Proof.Machine.execMulh c gd ga gb s
  | .div c gd ga gb => Sys2Proof.Machine.execDiv c gd ga gb s
  | .divu c gd ga gb => Sys2Proof.Machine.execDivu c gd ga gb s
  | .rem c gd ga gb => Sys2Proof.Machine.execRem c gd ga gb s
  | .remu c gd ga gb => Sys2Proof.Machine.execRemu c gd ga gb s
  | .min c gd ga gb => Sys2Proof.Machine.execMin c gd ga gb s
  | .max c gd ga gb => Sys2Proof.Machine.execMax c gd ga gb s
  | .minu c gd ga gb => Sys2Proof.Machine.execMinu c gd ga gb s
  | .maxu c gd ga gb => Sys2Proof.Machine.execMaxu c gd ga gb s
  | .abss c gd ga => Sys2Proof.Machine.execAbss c gd ga s
  | .and c gd ga gb => Sys2Proof.Machine.execAnd c gd ga gb s
  | .or c gd ga gb => Sys2Proof.Machine.execOr c gd ga gb s
  | .xor c gd ga gb => Sys2Proof.Machine.execXor c gd ga gb s
  | .andn c gd ga gb => Sys2Proof.Machine.execAndn c gd ga gb s
  | .orn c gd ga gb => Sys2Proof.Machine.execOrn c gd ga gb s
  | .bnot c gd ga => Sys2Proof.Machine.execBnot c gd ga s
  | .sll c gd ga gb => Sys2Proof.Machine.execSll c gd ga gb s
  | .srl c gd ga gb => Sys2Proof.Machine.execSrl c gd ga gb s
  | .sra c gd ga gb => Sys2Proof.Machine.execSra c gd ga gb s
  | .slli c gd ga amount => Sys2Proof.Machine.execSlli c gd ga amount s
  | .srli c gd ga amount => Sys2Proof.Machine.execSrli c gd ga amount s
  | .srai c gd ga amount => Sys2Proof.Machine.execSrai c gd ga amount s
  | .seq c gd ga gb => Sys2Proof.Machine.execSeq c gd ga gb s
  | .sne c gd ga gb => Sys2Proof.Machine.execSne c gd ga gb s
  | .slt c gd ga gb => Sys2Proof.Machine.execSlt c gd ga gb s
  | .sltu c gd ga gb => Sys2Proof.Machine.execSltu c gd ga gb s
  | .sle c gd ga gb => Sys2Proof.Machine.execSle c gd ga gb s
  | .sleu c gd ga gb => Sys2Proof.Machine.execSleu c gd ga gb s
  | .addi c gd ga imm => Sys2Proof.Machine.execAddi c gd ga imm s
  | .addis c gd ga imm => Sys2Proof.Machine.execAddis c gd ga imm s
  | .andi c gd ga imm => Sys2Proof.Machine.execAndi c gd ga imm s
  | .ori c gd ga imm => Sys2Proof.Machine.execOri c gd ga imm s
  | .xori c gd ga imm => Sys2Proof.Machine.execXori c gd ga imm s
  | .lui c gd imm => Sys2Proof.Machine.execLui c gd imm s
  | .slti c gd ga imm => Sys2Proof.Machine.execSlti c gd ga imm s
  | .sltiu c gd ga imm => Sys2Proof.Machine.execSltiu c gd ga imm s
  | .beq c ga gb offset => Sys2Proof.Machine.execBeq c ga gb offset s
  | .bne c ga gb offset => Sys2Proof.Machine.execBne c ga gb offset s
  | .blt c ga gb offset => Sys2Proof.Machine.execBlt c ga gb offset s
  | .bge c ga gb offset => Sys2Proof.Machine.execBge c ga gb offset s
  | .bltu c ga gb offset => Sys2Proof.Machine.execBltu c ga gb offset s
  | .bgeu c ga gb offset => Sys2Proof.Machine.execBgeu c ga gb offset s
  | .lw c gd ga imm => Sys2Proof.Machine.execLw c gd ga imm s
  | .lh c gd ga imm => Sys2Proof.Machine.execLh c gd ga imm s
  | .lhu c gd ga imm => Sys2Proof.Machine.execLhu c gd ga imm s
  | .lb c gd ga imm => Sys2Proof.Machine.execLb c gd ga imm s
  | .lbu c gd ga imm => Sys2Proof.Machine.execLbu c gd ga imm s
  | .lwi c gd imm => Sys2Proof.Machine.execLwi c gd imm s
  | .sw c gs ga imm => Sys2Proof.Machine.execSw c gs ga imm s
  | .sh c gs ga imm => Sys2Proof.Machine.execSh c gs ga imm s
  | .sb c gs ga imm => Sys2Proof.Machine.execSb c gs ga imm s
  | .swi c gs imm => Sys2Proof.Machine.execSwi c gs imm s
  | .jmp c target => Sys2Proof.Machine.execJmp c target s
  | .call c gi target => Sys2Proof.Machine.execCall c gi target s
  | .callr c gi ga => Sys2Proof.Machine.execCallr c gi ga s
  | .jmpr c ga => Sys2Proof.Machine.execJmpr c ga s
  | .ret c => Sys2Proof.Machine.execRet c s
  | .ldw c g addr => Sys2Proof.Machine.execLdw c g addr s
  | .stw c g addr => Sys2Proof.Machine.execStw c g addr s
  | .ldb c g addr => Sys2Proof.Machine.execLdb c g addr s
  | .ldbn c g addr => Sys2Proof.Machine.execLdbn c g addr s
  | .stb c g addr => Sys2Proof.Machine.execStb c g addr s
  | .stbn c g addr => Sys2Proof.Machine.execStbn c g addr s
  | .ldbx c g ga => Sys2Proof.Machine.execLdbx c g ga s
  | .stbx c g ga => Sys2Proof.Machine.execStbx c g ga s
  | .ldwx c g ga => Sys2Proof.Machine.execLdwx c g ga s
  | .stwx c g ga => Sys2Proof.Machine.execStwx c g ga s
  | .ldq c g ga => Sys2Proof.Machine.execLdq c g ga s
  | .ldwq c g ga => Sys2Proof.Machine.execLdwq c g ga s
  | .rdb c gd sel => Sys2Proof.Machine.execRdb c gd sel s
  | .rdt c gd sel => Sys2Proof.Machine.execRdt c gd sel s
  | .svq c gd ga => Sys2Proof.Machine.execSvq c gd ga s
  | .svw c gd ga imm => Sys2Proof.Machine.execSvw c gd ga imm s
  | .rde c gd => Sys2Proof.Machine.execRde c gd s
  | .retn c => Sys2Proof.Machine.execRetn c s
  | .enter c ga => Sys2Proof.Machine.execEnter c ga s
  | .assert c ga => Sys2Proof.Machine.execAssert c ga s
  | .depth c gd => Sys2Proof.Machine.execDepth c gd s
  | .rdib c gd => Sys2Proof.Machine.execRdib c gd s
  | .inputFilterSample rd => Sys2Proof.Machine.execInputFilterSample rd s
  | .chipBoundary => Sys2Proof.Machine.execChipBoundary s
  | .outputTerminalChange ch high low coilMa => Sys2Proof.Machine.execOutputTerminalChange ch high low coilMa s
  | .linkUp => Sys2Proof.Machine.execLinkUp s
  | .hostDmaEnd r sqIdx ok bytes hdr => Sys2Proof.Machine.execHostDmaEnd r sqIdx ok bytes hdr s
  | .sealedStoreWriteEnd => Sys2Proof.Machine.execSealedStoreWriteEnd s
  | .ioEdgesReturn => Sys2Proof.Machine.execIoEdgesReturn s
  | .refinLock ofs => Sys2Proof.Machine.execRefinLock ofs s
  | .ppsTimeout => Sys2Proof.Machine.execPpsTimeout s
  | .histogramSample temp => Sys2Proof.Machine.execHistogramSample temp s

end Sys2Proof.Machine
end

