-- ==== Sys2Proof/Machine/Tick.lean ====
section
/-!
DEFINITION. The passing of time on an empty queue.
-/
namespace Sys2Proof.Machine

open Sys2Proof

/-- One tick of TB, 10 ns (R429): TB is 64 bits wide. With PLL-T stopped, TB stands (R436). A running self-test goes on
(R492). -/
def tick (s : State) : State := if s.clk.stopped then s else testTurn { s with tb := (s.tb + 1) % 2 ^ 64 }

end Sys2Proof.Machine
end

