-- ==== Sys2Proof/Safety.lean ====
section
/-!
DEFINITION. The terms in which claims are made: which core runs, what retirement and a trap leave of a core, what else
a command may change.
-/
namespace Sys2Proof.Machine

open Sys2Proof

/-! ### A command's answer -/

/-- A command answers a next state of which something holds. -/
def Gives (i : Instr) (s : State) (Q : State → Prop) : Prop := ∃ t, exec i s = .next t ∧ Q t

/-! ### Cores -/

/-- Core `c` executes, in the surroundings `x`, with its PC inside the program area (R539). -/
def Runs (s : State) (c : CoreId) (x : CoreCtx) : Prop := coreCtx s c = some x ∧ s.cores[c].pc.toNat < x.prog

/-- `t` differs from `s` at most in core `c`. -/
def OnlyCore (c : CoreId) (s t : State) : Prop :=
  t = { s with cores := t.cores } ∧ ∀ d : CoreId, d ≠ c → t.cores[d] = s.cores[d]

/-- A core keeps everything but its registers, PC, signature, counter and what it presents. -/
def KeepsCore (k k' : Core) : Prop :=
  k' = { k with g := k'.g, pc := k'.pc, sig := k'.sig, count := k'.count, run := k'.run, out := k'.out }

/-- Retirement of an instruction that is no commit point (R126, R127): a vital core feeds the records in order and
counts; at 4,096 it presents a forced commit. A non-vital core does neither (R33). -/
def Retires (vital : Bool) (recs : List (List Byte)) (k k' : Core) : Prop :=
  let fed := recs.foldl crc64From k.sig
  if vital then
    k'.count = k.count + 1 ∧
    if k.count + 1 = 4096 then
      let sig := crc64From fed (recBytes 5 3 k.seq 0#32)
      k'.sig = sig ∧ k'.run = .waitCommit ∧
        k'.out = some (.commit { kind := 3, seq := k.seq, sig := sig, sub := 0, addr := 0#32, value := 0#32 })
    else k'.sig = fed ∧ k'.run = k.run ∧ k'.out = k.out
  else k'.count = k.count ∧ k'.sig = k.sig ∧ k'.run = k.run ∧ k'.out = k.out

/-- A commit point of a vital core (R36, R126): the records, then the commit record, are fed; it is presented, and the
core waits. -/
def Commits (kind sub : Nat) (addr value : Word) (recs : List (List Byte)) (k k' : Core) : Prop :=
  let sig := crc64From (recs.foldl crc64From k.sig) (recBytes 5 kind k.seq 0#32)
  k'.count = k.count + 1 ∧ k'.sig = sig ∧ k'.run = .waitCommit ∧
    k'.out = some (.commit { kind := kind, seq := k.seq, sig := sig, sub := sub, addr := addr, value := value })

/-- The records of a register write: none for G0 (R101, R126). -/
def regRecs (d : Reg) (v : Word) : List (List Byte) := if d = 0 then [] else [recBytes 1 d.val 0#32 v]

/-- Register `d` holds `v` afterwards, unless it is G0; every other register keeps its value (R101). -/
def SetsReg (d : Reg) (v : Word) (k k' : Core) : Prop :=
  ∀ r : Reg, k'.reg r = if r = d ∧ d ≠ 0 then v else k.reg r

/-- An instruction that writes `v` into `d`, goes to the next word and retires; nothing else changes. -/
def Wrote (c : CoreId) (x : CoreCtx) (d : Reg) (v : Word) (s t : State) : Prop :=
  OnlyCore c s t ∧ SetsReg d v s.cores[c] t.cores[c] ∧ t.cores[c].pc = s.cores[c].pc + 1#22 ∧
    KeepsCore s.cores[c] t.cores[c] ∧ Retires x.vital (regRecs d v) s.cores[c] t.cores[c]

/-- An instruction that only sets PC and retires. -/
def WentTo (c : CoreId) (x : CoreCtx) (pc : BitVec 22) (s t : State) : Prop :=
  OnlyCore c s t ∧ (∀ r : Reg, t.cores[c].reg r = s.cores[c].reg r) ∧ t.cores[c].pc = pc ∧
    KeepsCore s.cores[c] t.cores[c] ∧ Retires x.vital [] s.cores[c] t.cores[c]

/-- The trap of a vital core (R128): it stops, presents a report, and nothing else changes. -/
def TrapsVital (c : CoreId) (code : Nat) (addr : Word) (s t : State) : Prop :=
  OnlyCore c s t ∧ t.cores[c] = { s.cores[c] with
    run := .trapped,
    out := some (.trap { code := code, seq := s.cores[c].seq, pc := s.cores[c].pc, addr := addr }) }

/-! ### Core addresses -/

/-- The address of a load or store form (R108): Ga + IMM with IMM sign-extended, or IB + IMM with IMM zero-extended. -/
def formAddr (k : Core) (ga : Option Reg) (imm : BitVec 16) : Nat :=
  match ga with
  | some a => ((k.reg a).toNat + (imm.signExtend 32).toNat) % 2 ^ 32
  | none => (k.ib.toNat + imm.toNat) % 2 ^ 32

/-- Region or window offset `o` is open to core `c` (R104); a non-vital core keeps the pages in use (R92). -/
def InRegion (s : State) (c : CoreId) (x : CoreCtx) (o : Nat) : Prop :=
  o < 0x40000000 ∧ (o < x.size ∨ x.vital = false ∧ o / 4096 ∈ s.tri.nvPages[c])

/-- A core address in a window from which loads are permitted (R104). -/
def Loadable (s : State) (c : CoreId) (x : CoreCtx) (a : Nat) : Prop :=
  a < 0x40000 ∨ 0x40000000 ≤ a ∧ InRegion s c x (a - 0x40000000)

/-- The byte that core `c` reads at a loadable address: its local SRAM, or its own bank. -/
def byteAt (s : State) (c : CoreId) (x : CoreCtx) (a : Nat) : Nat :=
  if a < 0x40000 then (SMap.get 0#8 s.cores[c].sram a).toNat
  else (bankByte s x.bank (x.base + (a - 0x40000000))).toNat

/-- The mask of a store of `n` bytes at an address (R32). -/
def maskOf (n a : Nat) : Nat := (2 ^ n - 1) * 2 ^ (a % 4)

/-- The aligned word of a store record: the low `n` bytes of the register in their places, disabled bytes zero (R32). -/
def recWord (n a : Nat) (v : Word) : Word := BitVec.ofNat 32 (v.toNat % 256 ^ n * 256 ^ (a % 4))

/-- Byte `i` of a value, little-endian. -/
def byteOf (v : Word) (i : Nat) : Byte := BitVec.ofNat 8 (v.toNat / 256 ^ i)

/-- `n` bytes of one bank from an offset take the low bytes of a value; every other byte of all three banks is kept. -/
def StoredInBank (l : Lane) (ofs n : Nat) (v : Word) (s t : State) : Prop :=
  ∀ (m : Lane) (o : Nat), bankByte t m o =
    if m = l ∧ ofs ≤ o ∧ o < ofs + n then byteOf v (o - ofs) else bankByte s m o

/-- No byte of any bank changes. -/
def BanksKept (s t : State) : Prop := ∀ (m : Lane) (o : Nat), bankByte t m o = bankByte s m o

/-- What a store or a page note may touch besides cores and banks: a triad's Heel, the engine that last served, the
pages noted for the equaliser; nothing else of the state. -/
def StoreFrame (c : CoreId) (s t : State) : Prop :=
  t = { s with cores := t.cores, banks := t.banks, ecc := t.ecc, triads := t.triads, pim := t.pim, eccSoft := t.eccSoft,
               tri := { s.tri with engineLast := t.tri.engineLast },
               rck := { s.rck with written := t.rck.written } } ∧
  (∀ d : CoreId, d ≠ c → t.cores[d] = s.cores[d]) ∧
  (∀ n : TriadId, t.triads[n] = { s.triads[n] with heel := t.triads[n].heel })

/-- An instruction that writes no register, goes to the next word and retires with the records given. -/
def Stepped (c : CoreId) (x : CoreCtx) (recs : List (List Byte)) (s t : State) : Prop :=
  t.cores[c].g = s.cores[c].g ∧ t.cores[c].pc = s.cores[c].pc + 1#22 ∧
    KeepsCore s.cores[c] t.cores[c] ∧ Retires x.vital recs s.cores[c] t.cores[c]

/-- The memories stand in their one canonical form: the three banks and every core's local SRAM. -/
def Memory.wf (s : State) : Bool :=
  (fins 3).all (fun l => SMap.wf 0#8 s.banks[l]) && (fins 16).all (fun c => SMap.wf 0#8 s.cores[c].sram)

/-- The process image of every lane, the status words of the CAN channels, the host's status slots and the Logbook stand in their
one canonical form. -/
def Maps.wf (s : State) : Bool :=
  (fins 3).all (fun l =>
    let m := s.pim.img[l]
    SMap.wf 0#32 m.cur && SMap.wf 0#32 m.cpy && SMap.wf 0#32 m.qual &&
      (fins 5).all (fun p => SMap.wf 0#32 m.ints[p] && SMap.wf none m.ovl[p])) &&
  (fins 4).all (fun c => SMap.wf 0#32 s.can[c].stat && SMap.wf 0#32 s.can[c].snapSt) &&
  SMap.wf 0#8 s.hst.statMem && SMap.wf 0 s.log.vol && (fins 2).all (fun l => SMap.wf 0#8 s.nv.logs[l])

/-! ### Events -/

/-- A NONVITAL event raised in `s` is in the queue of `t`, if the queue had room (R466, R467). -/
def RaisedNv (code : Nat) (who : Byte) (a b : Word) (s t : State) : Prop :=
  evMuted s code = false → s.err.nq.length < 64 → mkEv s code who a b ∈ t.err.nq

/-- A VITAL or FATAL event raised in `s` is in the queue of `t`, if the queue had room (R466). -/
def RaisedV (code : Nat) (who : Byte) (a b : Word) (s t : State) : Prop :=
  evMuted s code = false → s.err.vq.length < 32 → mkEv s code who a b ∈ t.err.vq

/-- `t` is `u` but for the event queues and counts and the Logbook's counters. -/
def Aside (u t : State) : Prop := t = { u with err := t.err, log := t.log }

/-! ### Host commands -/

/-- The reference under which ring `r`'s next descriptor is outstanding. -/
def nextRef (s : State) (r : Fin 8) : CmdRef := ⟨r, s.hst.rings[r].fetched⟩

/-- Ring `r` fetches descriptor `d` of opcode `op`, and steps 1 to 6 of R391 pass. Fetch numbers count up. -/
def PassesChecks (s : State) (r : Fin 8) (d : Descriptor) (op : Nat) : Prop :=
  ringFetches s r = true ∧ s.hst.rings[r].en = true ∧ d.opcode.toNat = op ∧ ringOpcode r op = true ∧
    (s.scn.mode = .shutdown → op = 1) ∧ fld d.flags 4 4 = 0 ∧ tagCheck s r d = 0 ∧
    ∀ c ∈ s.hst.rings[r].outs, c.no < s.hst.rings[r].fetched

/-- The ring's head has passed the descriptor, which stays outstanding; `dma` says that its host memory access runs.
A tagged command that waits has been accepted: its SEQ is the last of its ring and slot (R388). -/
def Outstanding (r : Fin 8) (d : Descriptor) (dma : Bool) (s t : State) : Prop :=
  (∃ c ∈ t.hst.rings[r].outs, c.desc = d ∧ c.no = s.hst.rings[r].fetched ∧ c.dma = dma) ∧
    t.hst.rings[r].sqHead = (s.hst.rings[r].sqHead + 1) % ringSize s.hst.rings[r] ∧
    (dma = false → d.tagged = true → t.hst.seqs[r][d.slot] = d.seq)

/-- The ring's completion queue has a new last entry for the descriptor, with its STATUS and DETAIL (R385). -/
def Answered (r : Fin 8) (d : Descriptor) (status detail : Nat) (s t : State) : Prop :=
  ∃ e, t.hst.rings[r].cq = s.hst.rings[r].cq ++ [e] ∧ e.typ = 1 ∧ e.id = d.cid ∧ e.a = BitVec.ofNat 8 status ∧
    e.b = BitVec.ofNat 8 detail ∧ e.cyc = s.scn.cycle

/-- The mode requests that R147 and R148 accept. -/
def ModeAllowed (s : State) (m : Mode) : Prop :=
  m = s.scn.mode ∨
  (m = .run ∧ (s.scn.mode = .stop ∧ s.scn.imageValid = true ∨ s.scn.mode = .hold ∧ s.scn.commEn = true)) ∨
  (m = .hold ∧ (s.scn.mode = .stop ∨ s.scn.mode = .run) ∧ s.scn.commEn = true ∧ s.scn.imageValid = true) ∨
  (m = .stop ∧ (s.scn.mode = .run ∨ s.scn.mode = .hold)) ∨
  (m = .shutdown ∧ (s.scn.mode = .stop ∨ s.scn.mode = .safe))

end Sys2Proof.Machine
end

