-- ==== Sys2Proof/Certificates/Slice0/Obligations.lean ====
section
/-!
DEFINITION. The statements about the module that the provers are asked to prove.
-/
open Sys2Proof Sys2Proof.Machine

/-! ### Commands and instruction words -/

/-- The command at the front of the queue runs with the queue's rest: FIRST IN, FIRST OUT. -/
def Obligations.StepRunsFrontCommand : Prop :=
  ∀ (s : State) (c : Instr) (rest : List Instr), s.pending = c :: rest →
    step s = exec c { s with pending := rest }

/-- Every command of the table completes in every state: none ends in a fault or a refusal. What each does is the subject of
the statements below. -/
def Obligations.EveryCommandCompletes : Prop :=
  ∀ (s : State) (c : Instr), ∃ t, exec c s = .next t

/-- R106 to R110: every instruction of a core, with every operand at every value, is what its own word decodes to, and
the instruction that a word decodes to has that word: no bit of an encoding is dropped. The illegal instruction stands
for every word that no other instruction has. -/
def Obligations.InstructionWords : Prop :=
  (∀ (i : Instr) (w : Word), encode i = some w → (∀ c v, i ≠ .illegalInstruction c v) → ∃ c, decodeItrel c w = i) ∧
  ∀ (c : CoreId) (w : Word), encode (decodeItrel c w) = some w

/-! ### Itrel: arithmetic and logic -/

/-- R109: the modular and bitwise rows, minimum and maximum, the comparisons, which write 1 or 0, and the shifts by
Gb[4:0] or by the Gb field: the result, and everything an instruction of this kind leaves alone. -/
def Obligations.RegisterOperations : Prop :=
  ∀ (s : State) (c : CoreId) (x : CoreCtx) (d a b : Reg), Runs s c x →
    (∀ op ∈ ([(.add, fun u v => u + v),
             (.sub, fun u v => u - v),
             (.mul, fun u v => BitVec.ofNat 32 (u.toNat * v.toNat)),
             (.mulh, fun u v => ((u.signExtend 64 * v.signExtend 64) >>> 32).setWidth 32),
             (.and, fun u v => u &&& v),
             (.or, fun u v => u ||| v),
             (.xor, fun u v => u ^^^ v),
             (.andn, fun u v => u &&& ~~~v),
             (.orn, fun u v => u ||| ~~~v),
             (.min, fun u v => if u.slt v then u else v),
             (.max, fun u v => if u.slt v then v else u),
             (.minu, fun u v => if u.ult v then u else v),
             (.maxu, fun u v => if u.ult v then v else u),
             (.seq, fun u v => if u = v then 1 else 0),
             (.sne, fun u v => if u = v then 0 else 1),
             (.slt, fun u v => if u.slt v then 1 else 0),
             (.sltu, fun u v => if u.ult v then 1 else 0),
             (.sle, fun u v => if u.sle v then 1 else 0),
             (.sleu, fun u v => if u.ule v then 1 else 0),
             (fun c d a _ => .bnot c d a, fun u _ => if u = 0 then 1 else 0)] :
            List ((CoreId → Reg → Reg → Reg → Instr) × (Word → Word → Word))),
      Gives (op.1 c d a b) s (Wrote c x d (op.2 (s.cores[c].reg a) (s.cores[c].reg b)) s)) ∧
    let u := s.cores[c].reg a
    let n := ((s.cores[c].reg b).extractLsb' 0 5).toNat
    Gives (.sll c d a b) s (Wrote c x d (BitVec.ofNat 32 (u.toNat * 2 ^ n)) s) ∧
    Gives (.srl c d a b) s (Wrote c x d (BitVec.ofNat 32 (u.toNat / 2 ^ n)) s) ∧
    Gives (.sra c d a b) s (Wrote c x d (BitVec.ofInt 32 (u.toInt / 2 ^ n)) s) ∧
    Gives (.slli c d a b) s (Wrote c x d (BitVec.ofNat 32 (u.toNat * 2 ^ b.val)) s) ∧
    Gives (.srli c d a b) s (Wrote c x d (BitVec.ofNat 32 (u.toNat / 2 ^ b.val)) s) ∧
    Gives (.srai c d a b) s (Wrote c x d (BitVec.ofInt 32 (u.toInt / 2 ^ b.val)) s)

/-- R109, R111: the saturating rows, limited to −2^31 to 2^31 − 1, or to 0 to 2^32 − 1 if unsigned; and division and
remainder by a divisor that is not zero: −2^31 by −1 gives 2^31 − 1 and remainder 0. -/
def Obligations.SaturationAndDivision : Prop :=
  ∀ (s : State) (c : CoreId) (x : CoreCtx) (d a b : Reg), Runs s c x →
    let u := s.cores[c].reg a
    let v := s.cores[c].reg b
    let limit := fun n : Int => BitVec.ofInt 32 (max (-2 ^ 31) (min n (2 ^ 31 - 1)))
    Gives (.adds c d a b) s (Wrote c x d (limit (u.toInt + v.toInt)) s) ∧
    Gives (.subs c d a b) s (Wrote c x d (limit (u.toInt - v.toInt)) s) ∧
    Gives (.muls c d a b) s (Wrote c x d (limit (u.toInt * v.toInt)) s) ∧
    Gives (.abss c d a) s (Wrote c x d (limit (max u.toInt (-u.toInt))) s) ∧
    Gives (.addus c d a b) s (Wrote c x d (BitVec.ofNat 32 (min (u.toNat + v.toNat) (2 ^ 32 - 1))) s) ∧
    Gives (.subus c d a b) s (Wrote c x d (BitVec.ofInt 32 (max ((u.toNat : Int) - v.toNat) 0)) s) ∧
    (v ≠ 0 →
      Gives (.div c d a b) s (Wrote c x d (BitVec.ofInt 32 (min (u.toInt.tdiv v.toInt) (2 ^ 31 - 1))) s) ∧
      Gives (.rem c d a b) s (Wrote c x d (BitVec.ofInt 32 (u.toInt.tmod v.toInt)) s) ∧
      Gives (.divu c d a b) s (Wrote c x d (BitVec.ofNat 32 (u.toNat / v.toNat)) s) ∧
      Gives (.remu c d a b) s (Wrote c x d (BitVec.ofNat 32 (u.toNat % v.toNat)) s))

/-- R108: the immediate rows; ANDI, ORI, XORI zero-extend. -/
def Obligations.Immediates : Prop :=
  ∀ (s : State) (c : CoreId) (x : CoreCtx) (d a : Reg) (imm : BitVec 16), Runs s c x →
    let u := s.cores[c].reg a
    Gives (.addi c d a imm) s (Wrote c x d (BitVec.ofInt 32 (u.toInt + imm.toInt)) s) ∧
    Gives (.addis c d a imm) s
      (Wrote c x d (BitVec.ofInt 32 (max (-2 ^ 31) (min (u.toInt + imm.toInt) (2 ^ 31 - 1)))) s) ∧
    Gives (.andi c d a imm) s (Wrote c x d (u &&& BitVec.ofNat 32 imm.toNat) s) ∧
    Gives (.ori c d a imm) s (Wrote c x d (u ||| BitVec.ofNat 32 imm.toNat) s) ∧
    Gives (.xori c d a imm) s (Wrote c x d (u ^^^ BitVec.ofNat 32 imm.toNat) s) ∧
    Gives (.lui c d imm) s (Wrote c x d (BitVec.ofNat 32 (imm.toNat * 65536)) s) ∧
    Gives (.slti c d a imm) s (Wrote c x d (if u.toInt < imm.toInt then 1 else 0) s) ∧
    Gives (.sltiu c d a imm) s (Wrote c x d (if u.toNat < (imm.signExtend 32).toNat then 1 else 0) s)

/-! ### Itrel: control flow -/

/-- R108, R110, R539: a branch goes to PC + OFFSET modulo 2^22 if its condition holds, else to PC + 1; JMP goes to its
target, JMPR to Ga[21:0]; a register target above 22 bits traps a vital core with ADDR_FAULT (0x0222). An ASSERT of a value other
than 0 goes to PC + 1 (R110, R118). -/
def Obligations.BranchesAndJumps : Prop :=
  ∀ (s : State) (c : CoreId) (x : CoreCtx) (a b : Reg) (ofs : BitVec 16) (target : BitVec 22), Runs s c x →
    (∀ op ∈ ([(.beq, fun u v => u = v),
             (.bne, fun u v => u ≠ v),
             (.blt, fun u v => u.toInt < v.toInt),
             (.bge, fun u v => v.toInt ≤ u.toInt),
             (.bltu, fun u v => u.toNat < v.toNat),
             (.bgeu, fun u v => v.toNat ≤ u.toNat)] :
            List ((CoreId → Reg → Reg → BitVec 16 → Instr) × (Word → Word → Prop))),
      (op.2 (s.cores[c].reg a) (s.cores[c].reg b) → Gives (op.1 c a b ofs) s
        (WentTo c x (BitVec.ofInt 22 (s.cores[c].pc.toNat + ofs.toInt)) s)) ∧
      (¬ op.2 (s.cores[c].reg a) (s.cores[c].reg b) → Gives (op.1 c a b ofs) s
        (WentTo c x (BitVec.ofInt 22 (s.cores[c].pc.toNat + 1)) s))) ∧
    Gives (.jmp c target) s (WentTo c x target s) ∧
    (s.cores[c].reg a ≠ 0 → Gives (.assert c a) s (WentTo c x (s.cores[c].pc + 1) s)) ∧
    (s.cores[c].reg a < 0x400000#32 →
      Gives (.jmpr c a) s (WentTo c x (BitVec.ofNat 22 (s.cores[c].reg a).toNat) s)) ∧
    (¬ s.cores[c].reg a < 0x400000#32 → x.vital = true →
      Gives (.jmpr c a) s (TrapsVital c 0x0222 (s.cores[c].reg a) s))

/-- R110, R116: CALL and CALLR push PC + 1 and IB, set IB to Gi unless Gi is G0, feed one record of kind 0x02, go to the
target and are no commit point; and their checks in order, on a vital core: a CALLR target above 22 bits (ADDR_FAULT), 64
entries on the stack (STACK_OVERFLOW), an instance pointer that step 2 refuses (IB_FAULT). DEPTH gives the entries of the call
stack, RDIB gives IB; ENTER, whose read at IB is permitted and which finds the TYPE_HASH in Ga, writes nothing (R105, R118). -/
def Obligations.Calls : Prop :=
  ∀ (s : State) (c : CoreId) (x : CoreCtx) (gi a : Reg) (target : BitVec 22), Runs s c x →
    let k := s.cores[c]
    Gives (.depth c a) s (Wrote c x a (BitVec.ofNat 32 k.stack.length) s) ∧
    Gives (.rdib c a) s (Wrote c x a k.ib s) ∧
    (k.ib.toNat % 4 = 0 → Loadable s c x k.ib.toNat → bankWord s x.bank (x.base + (k.ib.toNat - 0x40000000)) = k.reg a →
      Gives (.enter c a) s (WentTo c x (k.pc + 1) s)) ∧
    (s.cores[c].stack.length < 64 →
    let v := s.cores[c].reg gi
    (gi = 0 ∨ v.toNat % 16 = 0 ∧ 0x40000000 ≤ v.toNat ∧ v.toNat + 16 ≤ 0x40000000 + min x.size 0x40000000) →
    let ib := if gi = 0 then s.cores[c].ib else v
    let called := fun (pc : BitVec 22) (t : State) =>
      OnlyCore c s t ∧ (∀ r : Reg, t.cores[c].reg r = s.cores[c].reg r) ∧ t.cores[c].pc = pc ∧
      KeepsCore { s.cores[c] with stack := (s.cores[c].pc + 1, s.cores[c].ib) :: s.cores[c].stack, ib := ib } t.cores[c] ∧
      Retires x.vital [recBytes 2 0 0 ib] s.cores[c] t.cores[c]
    Gives (.call c gi target) s (called target) ∧
    (s.cores[c].reg a < 0x400000#32 → Gives (.callr c gi a) s (called (BitVec.ofNat 22 (s.cores[c].reg a).toNat)))) ∧
    (x.vital = true →
    (¬ s.cores[c].reg a < 0x400000#32 → Gives (.callr c gi a) s (TrapsVital c 0x0222 (s.cores[c].reg a) s)) ∧
    (∀ i ∈ [Instr.call c gi target, Instr.callr c gi a],
      i = .call c gi target ∨ s.cores[c].reg a < 0x400000#32 →
      (64 ≤ s.cores[c].stack.length → Gives i s (TrapsVital c 0x0227 0 s)) ∧
      (s.cores[c].stack.length < 64 → gi ≠ 0 →
        ¬ ((s.cores[c].reg gi).toNat % 16 = 0 ∧ 0x40000000 ≤ (s.cores[c].reg gi).toNat ∧
           (s.cores[c].reg gi).toNat + 16 ≤ 0x40000000 + min x.size 0x40000000) →
        Gives i s (TrapsVital c 0x0228 (s.cores[c].reg gi) s))))

/-- R117: RET with an entry on the stack pops it, restores IB and PC from it, feeds one record of kind 0x02, and is a commit point
of kind 0x2, after a function call as after a function block call; with none it ends the partition's Solve and is a commit point
of kind 0x4, pops nothing, leaves IB unchanged and feeds no record of kind 0x02. A core that does not execute, as one that waits
or has ended, does nothing, whatever the instruction. A non-vital partition, which has no voted signature and no commit points,
returns in the same way and ends with the last RET. -/
def Obligations.Returns : Prop :=
  (∀ (s : State) (c : CoreId) (w : Word), s.cores[c].run ≠ .running → Gives (decodeItrel c w) s (fun t => t = s)) ∧
  ∀ (s : State) (c : CoreId) (x : CoreCtx), Runs s c x →
    let k := s.cores[c]
    (∀ pc ib rest, k.stack = (pc, ib) :: rest → Gives (.ret c) s (fun t =>
      OnlyCore c s t ∧ t.cores[c].g = k.g ∧ t.cores[c].pc = pc ∧
      KeepsCore { k with stack := rest, ib := ib } t.cores[c] ∧
      if x.vital then Commits 2 0 0 0 [recBytes 2 0 0 ib] k t.cores[c] else Retires false [] k t.cores[c])) ∧
    (k.stack = [] → x.vital = true → Gives (.ret c) s (fun t =>
      OnlyCore c s t ∧ t.cores[c].g = k.g ∧ t.cores[c].pc = k.pc ∧
      KeepsCore k t.cores[c] ∧ Commits 4 0 0 0 [] k t.cores[c])) ∧
    (k.stack = [] → ∀ n, x.who = .nonvital n → n ∉ k.nvIdle → Gives (.ret c) s (fun t =>
      t.nvs[n].st = .done ∧ t = { s with cores := t.cores, nvs := t.nvs } ∧
      ∀ d : CoreId, d ≠ c → t.cores[d] = s.cores[d]))

/-! ### Itrel: loads and stores -/

/-- R104, R108: a load reads its own SRAM or its own bank, little-endian, at an aligned address in a window that permits
it. -/
def Obligations.Loads : Prop :=
  ∀ (s : State) (c : CoreId) (x : CoreCtx) (d a : Reg) (imm : BitVec 16), Runs s c x →
    let at_ := formAddr s.cores[c] (some a) imm
    let ib := formAddr s.cores[c] none imm
    let b := byteAt s c x
    let word := fun p => b p + 256 * b (p + 1) + 65536 * b (p + 2) + 16777216 * b (p + 3)
    let half := fun p => b p + 256 * b (p + 1)
    (at_ % 4 = 0 → Loadable s c x at_ → Gives (.lw c d a imm) s (Wrote c x d (BitVec.ofNat 32 (word at_)) s)) ∧
    (at_ % 2 = 0 → Loadable s c x at_ →
      Gives (.lh c d a imm) s (Wrote c x d ((BitVec.ofNat 16 (half at_)).signExtend 32) s) ∧
      Gives (.lhu c d a imm) s (Wrote c x d (BitVec.ofNat 32 (half at_)) s)) ∧
    (Loadable s c x at_ →
      Gives (.lb c d a imm) s (Wrote c x d ((BitVec.ofNat 8 (b at_)).signExtend 32) s) ∧
      Gives (.lbu c d a imm) s (Wrote c x d (BitVec.ofNat 32 (b at_)) s)) ∧
    (ib % 4 = 0 → Loadable s c x ib → Gives (.lwi c d imm) s (Wrote c x d (BitVec.ofNat 32 (word ib)) s))

/-- R13, R32, R72, R104, R108: a store into local SRAM changes its bytes there, feeds one record of space 0x1 and nothing
else; a vital core's store into its region, outside the program area, changes exactly its bytes in the lane's own bank and
feeds one record of space 0x2; SWI outside the header at IB. -/
def Obligations.MemoryStores : Prop :=
  ∀ (s : State) (c : CoreId) (x : CoreCtx) (g a : Reg) (imm : BitVec 16), Runs s c x →
    ∀ op ∈ [(Instr.sw c g a imm, 4, some a), (.sh c g a imm, 2, some a), (.sb c g a imm, 1, some a),
            (.swi c g imm, 4, none)],
      let p := formAddr s.cores[c] op.2.2 imm
      let o := p - 0x40000000
      let v := s.cores[c].reg g
      p % op.2.1 = 0 → (op.2.2 = none → 16 ≤ imm.toNat) →
      (p < 0x40000 → SMap.wf 0#8 s.cores[c].sram = true → Gives op.1 s (fun t =>
        OnlyCore c s t ∧
        (∀ o : Nat, SMap.get 0#8 t.cores[c].sram o =
          if p ≤ o ∧ o < p + op.2.1 then byteOf v (o - p) else SMap.get 0#8 s.cores[c].sram o) ∧
        t.cores[c].g = s.cores[c].g ∧ t.cores[c].pc = s.cores[c].pc + 1#22 ∧
        KeepsCore { s.cores[c] with sram := t.cores[c].sram } t.cores[c] ∧
        Retires x.vital [recBytes 3 (0x10 + maskOf op.2.1 p) (w32 (p / 4 * 4)) (recWord op.2.1 p v)]
          s.cores[c] t.cores[c])) ∧
      (x.vital = true → SMap.wf 0#8 s.banks[x.bank] = true → 0x40000000 ≤ p → p < 0x80000000 → o < x.size →
        4 * x.prog ≤ o → Gives op.1 s (fun t =>
        StoreFrame c s t ∧ t.pim = s.pim ∧
        StoredInBank x.bank (x.base + o) op.2.1 v s t ∧
        Stepped c x [recBytes 3 (0x20 + maskOf op.2.1 p) (w32 ((x.base + o) / 4 * 4)) (recWord op.2.1 p v)] s t))

/-- R20, R91, R92: a non-vital core's store into a page of its quota that is in use, or new within the limit, changes
exactly its bytes in the quota's bank; no vital state, and no other state but the pages in use, is touched. -/
def Obligations.QuotaStores : Prop :=
  ∀ (s : State) (c : CoreId) (x : CoreCtx) (g a : Reg) (imm : BitVec 16), Runs s c x → x.vital = false →
    SMap.wf 0#8 s.banks[x.bank] = true → partAt s (x.base + (formAddr s.cores[c] (some a) imm - 0x40000000)) = none →
    ∀ op ∈ [(Instr.sw c g a imm, 4), (.sh c g a imm, 2), (.sb c g a imm, 1)],
      let p := formAddr s.cores[c] (some a) imm
      let o := p - 0x40000000
      p % op.2 = 0 → 0x40000000 ≤ p → InRegion s c x o → 4 * x.prog ≤ o →
      (o / 4096 ∈ s.tri.nvPages[c] ∨ s.tri.nvPages[c].length < fld s.tri.nvqAct[c] 16 12 * 256) →
      Gives op.1 s (fun t =>
        t = { s with cores := t.cores, banks := t.banks, ecc := t.ecc, eccSoft := t.eccSoft,
                     tri := { s.tri with nvPages := t.tri.nvPages } } ∧
        (∀ d : CoreId, d ≠ c → t.cores[d] = s.cores[d] ∧ t.tri.nvPages[d] = s.tri.nvPages[d]) ∧
        o / 4096 ∈ t.tri.nvPages[c] ∧
        StoredInBank x.bank (x.base + o) op.2 (s.cores[c].reg g) s t ∧ Stepped c x [] s t)

/-- R105, R119: the checks of a load or store in their order, on a vital core: ALIGN, ADDR_FAULT, CODE_WRITE,
HEADER_WRITE; the first that fails traps, with the address. -/
def Obligations.AccessTraps : Prop :=
  ∀ (s : State) (c : CoreId) (x : CoreCtx) (r a : Reg) (imm : BitVec 16), Runs s c x → x.vital = true →
    (∀ op ∈ [(Instr.lw c r a imm, 4, some a), (.lh c r a imm, 2, some a), (.lhu c r a imm, 2, some a),
             (.lb c r a imm, 1, some a), (.lbu c r a imm, 1, some a), (.lwi c r imm, 4, none)],
      let p := formAddr s.cores[c] op.2.2 imm
      (p % op.2.1 ≠ 0 → Gives op.1 s (TrapsVital c 0x0221 (w32 p) s)) ∧
      (p % op.2.1 = 0 → ¬ Loadable s c x p → Gives op.1 s (TrapsVital c 0x0222 (w32 p) s))) ∧
    (∀ op ∈ [(Instr.sw c r a imm, 4, some a), (.sh c r a imm, 2, some a), (.sb c r a imm, 1, some a),
             (.swi c r imm, 4, none)],
      let p := formAddr s.cores[c] op.2.2 imm
      let o := p - 0x40000000
      let region := 0x40000000 ≤ p ∧ p < 0x80000000 ∧ o < x.size
      (p % op.2.1 ≠ 0 → Gives op.1 s (TrapsVital c 0x0221 (w32 p) s)) ∧
      (p % op.2.1 = 0 → 0x40000 ≤ p → ¬ region → ¬ (0xC0000000 ≤ p ∧ (devOf s (p - 0xC0000000)).isSome) →
        Gives op.1 s (TrapsVital c 0x0222 (w32 p) s)) ∧
      (p % op.2.1 = 0 → region → o < 4 * x.prog → Gives op.1 s (TrapsVital c 0x0223 (w32 p) s)) ∧
      (p % op.2.1 = 0 → region → 4 * x.prog ≤ o → op.2.2 = none → imm.toNat < 16 →
        Gives op.1 s (TrapsVital c 0x0224 (w32 p) s)))

/-! ### Itrel: signals -/

/-- R112, R113, R165 to R169, R180: a signal load gives what the process image returns in the lane's own bank, LDBN its
inverse, LDQ and LDWQ the quality word. The image returns an active force first, then the partition's own overlay in the input
and host request areas, then the area; the owner of an output or boundary signal reads its own value, every other reader the
copy at B, and a non-vital reader reads 0 from the internal area. -/
def Obligations.SignalLoads : Prop :=
  (∀ (s : State) (c : CoreId) (x : CoreCtx) (d a : Reg) (w : BitVec 19) (b : BitVec 23), Runs s c x →
    let at_ := (s.cores[c].reg a).toNat
    let load := pimLoad s x.bank x.reader
    let quality := pimQuality s x.bank x.reader
    Gives (.ldw c d w) s (Wrote c x d (load ⟨true, w.toNat⟩) s) ∧
    (b.toNat < 5242880 →
      Gives (.ldb c d b) s (Wrote c x d (load ⟨false, b.toNat⟩) s) ∧
      Gives (.ldbn c d b) s (Wrote c x d (load ⟨false, b.toNat⟩ ^^^ 1) s)) ∧
    (at_ < 5242880 →
      Gives (.ldbx c d a) s (Wrote c x d (load ⟨false, at_⟩) s) ∧
      Gives (.ldq c d a) s (Wrote c x d (quality ⟨false, at_⟩) s)) ∧
    (at_ < 524288 →
      Gives (.ldwx c d a) s (Wrote c x d (load ⟨true, at_⟩) s) ∧
      Gives (.ldwq c d a) s (Wrote c x d (quality ⟨true, at_⟩) s))) ∧
  ∀ (s : State) (l : Lane) (reader : Option PartId) (g : Sig),
    let img := s.pim.img[l]
    (∀ v, forceFor s reader g = some v → pimLoad s l reader g = v) ∧
    (forceFor s reader g = none →
      (g.area = .input ∨ g.area = .hostReq → ∀ p : PartId, reader = some p →
        pimLoad s l reader g = (SMap.get none img.ovl[p] g.key).getD (SMap.get 0 img.cur g.key)) ∧
      (g.area = .output ∨ g.area = .boundary →
        pimLoad s l reader g = SMap.get 0 (if reader.isSome ∧ ownerOf s (.signal g) = reader then img.cur else img.cpy)
          g.key) ∧
      (g.area = .internal → ∀ p : PartId, reader = some p → pimLoad s l reader g = SMap.get 0 img.ints[p] g.key) ∧
      (g.area = .internal → reader = none → pimLoad s l reader g = 0))

/-- R35, R113, R114, R127: a vital core's store to the output or boundary area, or into a device window, writes nothing yet:
it is a commit point of kind 0x1 with the value that the program wrote, and the core waits; its record is of space 0x3, 0x4 or
0x5. -/
def Obligations.CommittedStores : Prop :=
  ∀ (s : State) (c : CoreId) (x : CoreCtx) (r a : Reg) (w : BitVec 19) (b : BitVec 23) (imm : BitVec 16), Runs s c x →
    x.vital = true →
    let v := s.cores[c].reg r
    let at_ := (s.cores[c].reg a).toNat
    let bool := if v = 0 then (0 : Word) else 1
    let waits := fun (sub : Nat) (addr u : Word) (t : State) =>
      OnlyCore c s t ∧ t.cores[c].g = s.cores[c].g ∧ t.cores[c].pc = s.cores[c].pc + 1#22 ∧
      KeepsCore s.cores[c] t.cores[c] ∧ Commits 1 sub addr u [recBytes 3 sub addr u] s.cores[c] t.cores[c]
    (∀ op ∈ [(Instr.stw c r w, (⟨true, w.toNat⟩ : Sig), v), (.stwx c r a, ⟨true, at_⟩, v),
            (.stb c r b, ⟨false, b.toNat⟩, bool), (.stbn c r b, ⟨false, b.toNat⟩, bool ^^^ 1),
            (.stbx c r a, ⟨false, at_⟩, bool)],
      let g := op.2.1
      g.inRange = true → g.area = .output ∨ g.area = .boundary →
        Gives op.1 s (waits (if g.word then 0x4F else 0x31) (w32 g.addr) op.2.2)) ∧
    ∀ op ∈ [(Instr.sw c r a imm, 4), (.sh c r a imm, 2), (.sb c r a imm, 1)],
      let p := formAddr s.cores[c] (some a) imm
      let o := p - 0xC0000000
      p % op.2 = 0 → 0xC0000000 ≤ p → (devOf s o).isSome = true →
        Gives op.1 s (waits (0x50 + maskOf op.2 p) (w32 (o / 4 * 4)) (recWord op.2 p v))

/-- R114, R165, R168: a vital core's store to the internal area goes to the partition's signals in the lane's own bank,
one to the input or host request area to its overlay there; one record is fed, no other signal changes, and no byte of a
bank. -/
def Obligations.LocalSignalStores : Prop :=
  ∀ (s : State) (c : CoreId) (x : CoreCtx) (n : TriadId) (l : Lane) (p : PartId) (r a : Reg) (w : BitVec 19)
    (b : BitVec 23), Runs s c x → x.who = .vital n l p →
    let v := s.cores[c].reg r
    let at_ := (s.cores[c].reg a).toNat
    let bool := if v = 0 then (0 : Word) else 1
    ∀ op ∈ [(Instr.stw c r w, (⟨true, w.toNat⟩ : Sig), v), (.stwx c r a, ⟨true, at_⟩, v),
            (.stb c r b, ⟨false, b.toNat⟩, bool), (.stbn c r b, ⟨false, b.toNat⟩, bool ^^^ 1),
            (.stbx c r a, ⟨false, at_⟩, bool)],
      let g := op.2.1
      let sub := if g.word then 0x4F else 0x31
      g.inRange = true → g.area ≠ .output → g.area ≠ .boundary →
      SMap.wf 0 s.pim.img[l].ints[p] = true → SMap.wf none s.pim.img[l].ovl[p] = true → Gives op.1 s (fun t =>
        StoreFrame c s t ∧ BanksKept s t ∧
        t.pim = { s.pim with img := t.pim.img } ∧
        (∀ m : Lane, m ≠ l → t.pim.img[m] = s.pim.img[m]) ∧
        t.pim.img[l] = { s.pim.img[l] with ints := t.pim.img[l].ints, ovl := t.pim.img[l].ovl } ∧
        (∀ q : PartId, q ≠ p →
          t.pim.img[l].ints[q] = s.pim.img[l].ints[q] ∧ t.pim.img[l].ovl[q] = s.pim.img[l].ovl[q]) ∧
        (∀ k : Nat, SMap.get 0 t.pim.img[l].ints[p] k =
          if g.area = .internal ∧ k = g.key then op.2.2 else SMap.get 0 s.pim.img[l].ints[p] k) ∧
        (∀ k : Nat, SMap.get none t.pim.img[l].ovl[p] k =
          if g.area ≠ .internal ∧ k = g.key then some op.2.2 else SMap.get none s.pim.img[l].ovl[p] k) ∧
        Stepped c x [recBytes 3 sub (w32 g.addr) op.2.2] s t)

/-! ### Itrel: system instructions and traps -/

/-- R121: RDB gives the boundary values, the same in every lane and every partition of a cycle but for the own number, and traps
with ILLEGAL on any other selector. R122: RDT gives the live TB to a non-vital partition, and traps with PRIV in a vital one. -/
def Obligations.SystemReads : Prop :=
  ∀ (s : State) (c : CoreId) (x : CoreCtx) (d : Reg), Runs s c x →
    let k := s.cores[c]
    let own := match x.who with
      | .vital _ _ p => p.val
      | .nonvital n => 8 + n.val
    Gives (.rdb c d 0) s (Wrote c x d (BitVec.ofNat 32 s.scn.bTb) s) ∧
    Gives (.rdb c d 1) s (Wrote c x d (BitVec.ofNat 32 (s.scn.bTb / 2 ^ 32)) s) ∧
    Gives (.rdb c d 2) s (Wrote c x d (BitVec.ofNat 32 s.scn.cycle) s) ∧
    Gives (.rdb c d 3) s (Wrote c x d (BitVec.ofNat 32 (s.scn.cycle / 2 ^ 32 % 2 ^ 16)) s) ∧
    Gives (.rdb c d 4) s (Wrote c x d (BitVec.ofNat 32 (s.scn.tcycAct.toNat * 10000)) s) ∧
    Gives (.rdb c d 5) s (Wrote c x d (BitVec.ofNat 32 own) s) ∧
    (∀ sel : Reg, 6 ≤ sel.val →
      (x.vital = true → Gives (.rdb c d sel) s (TrapsVital c 0x0220 0 s)) ∧
      (∀ n, x.who = .nonvital n → n ∉ k.nvIdle → Gives (.rdb c d sel) s (fun t => t.nvs[n].st = .stopped ∧
        (s.tri.nvTrapValid = false → t.tri.nvTrapCode = 0x20) ∧
        RaisedNv 0x022F (BitVec.ofNat 8 own) (w32 c.val) (k.pc.setWidth 32) s t))) ∧
    (x.vital = true → ∀ sel : Reg, Gives (.rdt c d sel) s (TrapsVital c 0x022D 0 s)) ∧
    (x.vital = false → Gives (.rdt c d 0) s (Wrote c x d (BitVec.ofNat 32 s.tb) s) ∧
      Gives (.rdt c d 1) s (Wrote c x d (BitVec.ofNat 32 (s.tb / 2 ^ 32)) s))

/-- R105, R107, R110, R111, R118, R121 to R125, R128, R130: what traps a vital core, with the code of R130 and the
address that the rules name; that INSTANCE_TYPE carries IB as its address is a choice of the model (log entry 12). SURVEY_REQUEST
meets an SVQ whose queue is full, an SVW with IMM above 7 and one whose Ga is not the first word of a complete request of the
triad; the SVW is judged once the lane's close mark of R226 is set. A trap writes no register, stores nothing and feeds no record. R539: an instruction of a core whose
PC lies at or above the program area does not execute: a vital core traps with ADDR_FAULT at 0x4000_0000 + 4 × PC. -/
def Obligations.VitalTraps : Prop :=
  (∀ (s : State) (c : CoreId) (x : CoreCtx) (i : Instr) (w : Word), coreCtx s c = some x → x.vital = true →
    x.prog ≤ s.cores[c].pc.toNat → decodeItrel c w = i →
    Gives i s (TrapsVital c 0x0222 (BitVec.ofNat 32 (0x40000000 + 4 * s.cores[c].pc.toNat)) s)) ∧
  ∀ (s : State) (c : CoreId) (x : CoreCtx) (d a b : Reg) (w : Word), Runs s c x → x.vital = true →
    let k := s.cores[c]
    let bad := (k.reg a).toNat
    Gives (.illegalInstruction c w) s (TrapsVital c 0x0220 0 s) ∧
    (∀ sel : Reg, 6 ≤ sel.val → Gives (.rdb c d sel) s (TrapsVital c 0x0220 0 s)) ∧
    (5242880 ≤ bad → ∀ i ∈ [Instr.ldbx c d a, .stbx c d a, .ldq c d a],
      Gives i s (TrapsVital c 0x0225 (w32 bad) s)) ∧
    (524288 ≤ bad → ∀ i ∈ [Instr.ldwx c d a, .stwx c d a, .ldwq c d a],
      Gives i s (TrapsVital c 0x0225 (w32 bad) s)) ∧
    (∀ g : BitVec 23, 5242880 ≤ g.toNat → ∀ i ∈ [Instr.ldb c d g, .ldbn c d g, .stb c d g, .stbn c d g],
      Gives i s (TrapsVital c 0x0225 (w32 g.toNat) s)) ∧
    (k.reg b = 0 → ∀ i ∈ [Instr.div c d a b, .divu c d a b, .rem c d a b, .remu c d a b],
      Gives i s (TrapsVital c 0x0226 0 s)) ∧
    (k.ib.toNat % 4 ≠ 0 → Gives (.enter c a) s (TrapsVital c 0x0221 k.ib s)) ∧
    (k.ib.toNat % 4 = 0 → ¬ Loadable s c x k.ib.toNat → Gives (.enter c a) s (TrapsVital c 0x0222 k.ib s)) ∧
    (k.ib.toNat % 4 = 0 → Loadable s c x k.ib.toNat → bankWord s x.bank (x.base + (k.ib.toNat - 0x40000000)) ≠ k.reg a →
      Gives (.enter c a) s (TrapsVital c 0x0229 k.ib s)) ∧
    (s.variant = .trv10 → Gives (.svq c d a) s (TrapsVital c 0x022A 0 s) ∧
      ∀ imm, Gives (.svw c d a imm) s (TrapsVital c 0x022A 0 s)) ∧
    (∀ (n : TriadId) (l : Lane) (p : PartId), x.who = .vital n l p → s.variant ≠ .trv10 →
      let q := s.svy.queues[n]
      (2 * q.quotaAct.toNat ≤ k.svq ∨ q.closeBy ≠ 0 ∧ q.words.length ≤ k.svq →
        Gives (.svq c d a) s (TrapsVital c 0x022B 0 s)) ∧
      ∀ imm : BitVec 16, 7 < imm.toNat ∨ bad % 2 ≠ 0 ∨ k.svq ≤ bad + 1 ∨ q.closeBy ≠ 0 ∧ q.closeLen ≤ bad + 1 →
        (k.closeMark ≠ none → Gives (.svw c d a imm) s (TrapsVital c 0x022B 0 s)) ∧
        (k.closeMark = none → Gives (.svw c d a imm) s (fun t => t.cores[c] = { k with
          closeMark := some k.svq, run := .trapped,
          out := some (.trap { code := 0x022B, seq := k.seq, pc := k.pc, addr := 0 }) }))) ∧
    (k.reg a = 0 → Gives (.assert c a) s (TrapsVital c 0x022C 0 s)) ∧
    (∀ sel : Reg, Gives (.rdt c d sel) s (TrapsVital c 0x022D 0 s)) ∧
    (k.nmiSave = none → Gives (.retn c) s (TrapsVital c 0x022D 0 s))

/-- R20, R91, R105, R122, R125, R132: what stops a non-vital partition: a trap, captured in TRI_NVTRAP unless it holds one, with
NV_TRAP (0x022F); or a store that R20 refuses, with NV_STORE_REFUSED, and no capture: a signal store, an SVQ, a store to a device
place that is not its own, and one into the window range of R104 outside its quota. No vital partition, triad, bank or signal is
touched. That SURVEY_ABSENT comes first on a TRV-10 is a choice of the model (log entry 100), and that R91 comes before the
ADDR_FAULT of R105 is one too (log entry 122). -/
def Obligations.NonvitalStops : Prop :=
  ∀ (s : State) (c : CoreId) (x : CoreCtx) (n : NvId) (d a b : Reg) (w : Word) (imm : BitVec 16) (g : BitVec 19)
    (h : BitVec 23), Runs s c x →
    x.who = .nonvital n → n ∉ s.cores[c].nvIdle →
    let k := s.cores[c]
    let kept := fun t : State =>
      t.nvs[n].st = .stopped ∧ (∀ e : CoreId, e ≠ c → t.cores[e] = s.cores[e]) ∧ t.triads = s.triads ∧
      t.parts = s.parts ∧ t.banks = s.banks ∧ t.pim = s.pim
    let trapped := fun (code : Nat) (addr : Word) (t : State) =>
      kept t ∧ t.tri.nvTrapValid = true ∧
      (s.tri.nvTrapValid = false → t.tri.nvTrapCore = BitVec.ofNat 4 c.val ∧
        t.tri.nvTrapPart = BitVec.ofNat 3 n.val ∧ t.tri.nvTrapCode = BitVec.ofNat 8 code ∧
        t.tri.nvTrapPc = k.pc ∧ t.tri.nvTrapAddr = addr) ∧
      (s.tri.nvTrapValid = true → t.tri = s.tri) ∧
      RaisedNv 0x022F (BitVec.ofNat 8 (8 + n.val)) (w32 c.val) (k.pc.setWidth 32) s t
    let refused := fun t : State => kept t ∧ t.tri = s.tri ∧
      RaisedNv 0x022E (BitVec.ofNat 8 (8 + n.val)) (w32 c.val) (k.pc.setWidth 32) s t
    Gives (.illegalInstruction c w) s (trapped 0x0220 0) ∧
    (k.reg b = 0 → Gives (.div c d a b) s (trapped 0x0226 0)) ∧
    (s.variant ≠ .trv10 → Gives (.svw c d a imm) s (trapped 0x022D 0) ∧ Gives (.svq c d a) s refused) ∧
    (s.variant = .trv10 → Gives (.svw c d a imm) s (trapped 0x022A 0) ∧ Gives (.svq c d a) s (trapped 0x022A 0)) ∧
    Gives (.retn c) s (trapped 0x022D 0) ∧
    Gives (.stw c d g) s refused ∧
    (h.toNat < 5242880 → Gives (.stb c d h) s refused ∧ Gives (.stbn c d h) s refused) ∧
    (5242880 ≤ h.toNat → Gives (.stb c d h) s (trapped 0x0225 (w32 h.toNat))) ∧
    ((k.reg a).toNat < 524288 → Gives (.stwx c d a) s refused) ∧
    ((k.reg a).toNat < 5242880 → Gives (.stbx c d a) s refused) ∧
    (∀ op ∈ [(Instr.lw c d a imm, 4), (.lh c d a imm, 2), (.lhu c d a imm, 2), (.lb c d a imm, 1), (.lbu c d a imm, 1)],
      let p := formAddr k (some a) imm
      (p % op.2 ≠ 0 → Gives op.1 s (trapped 0x0221 (w32 p))) ∧
      (p % op.2 = 0 → ¬ Loadable s c x p → Gives op.1 s (trapped 0x0222 (w32 p)))) ∧
    ∀ op ∈ [(Instr.sw c d a imm, 4), (.sh c d a imm, 2), (.sb c d a imm, 1)],
      let p := formAddr k (some a) imm
      let o := p - 0x40000000
      (p % op.2 ≠ 0 → Gives op.1 s (trapped 0x0221 (w32 p))) ∧
      (p % op.2 = 0 → 0x40000000 ≤ p → p < 0x80000000 →
        (¬ InRegion s c x o → Gives op.1 s refused) ∧
        (InRegion s c x o → o < 4 * x.prog → Gives op.1 s (trapped 0x0223 (w32 p)))) ∧
      (p % op.2 = 0 → 0x40000 ≤ p ∧ p < 0x40000000 ∨ 0x80000000 ≤ p ∧ p < 0xC0000000 ∨
          0xC0000000 ≤ p ∧ devOf s (p - 0xC0000000) = none → Gives op.1 s (trapped 0x0222 (w32 p))) ∧
      (p % op.2 = 0 → 0xC0000000 ≤ p → ∀ v, devOf s (p - 0xC0000000) = some v → devNv s v n = false → Gives op.1 s refused)

/-! ### Itrel: the Survey instructions -/

/-- R123, R124: SVQ queues Ga, writes the index of the word to Gd and is a commit point of kind 0x1 with a record of
space 0x6; the word enters the queue only when the commit is released. SVW, in a lane whose close mark of R226 is set,
gives word IMM of the voted result of the request at index Ga once it is present, and else waits, which retires nothing. -/
def Obligations.SurveyInstructions : Prop :=
  ∀ (s : State) (c : CoreId) (x : CoreCtx) (n : TriadId) (l : Lane) (p : PartId) (d a : Reg) (imm : BitVec 16),
    Runs s c x → x.who = .vital n l p → s.variant ≠ .trv10 →
    let k := s.cores[c]
    (k.svq < 2 * (s.svy.queues[n].quotaAct).toNat → s.svy.queues[n].closeBy = 0 →
      let i := w32 k.svq
      Gives (.svq c d a) s (fun t =>
        OnlyCore c s t ∧ SetsReg d i k t.cores[c] ∧ t.cores[c].pc = k.pc + 1 ∧
        KeepsCore { k with svq := k.svq + 1 } t.cores[c] ∧
        Commits 1 0x6F i (k.reg a) (regRecs d i ++ [recBytes 3 0x6F i (k.reg a)]) k t.cores[c])) ∧
    (k.closeMark ≠ none → imm.toNat ≤ 7 →
      let i := (k.reg a).toNat
      i % 2 = 0 → i + 1 < k.svq → (s.svy.queues[n].closeBy ≠ 0 → i + 1 < s.svy.queues[n].closeLen) →
      (∀ r, s.svy.done.find? (fun r => r.triad = n && r.index = i) = some r →
        Gives (.svw c d a imm) s (Wrote c x d (r.words.toList.getD imm.toNat 0) s)) ∧
      (s.svy.done.find? (fun r => r.triad = n && r.index = i) = none →
        Gives (.svw c d a imm) s (fun t => OnlyCore c s t ∧
          t.cores[c] = { k with run := .waitSvw d i imm.toNat })))

/-! ### Voting -/

/-- R40, R47: a commit record that arrives first waits; nothing is released. The second matching record of a triad, for
an owned signal, releases the commit 40 to 60 ns later (log entry 28): each bank's copy takes the value, both lanes go on with the
next sequence number, and the third lane's record is waited for: the released record with its stamp and the two arrivals. A
store to a signal that the partition does not own is not written: STORE_NOT_OWNED stops the partition, with the ARG_A of log
entry 16. Where the lane presents no commit, or the door loop application one that is not the next of its four (R299, log entry
15), nothing happens. -/
def Obligations.CommitVotes : Prop :=
  (∀ (s : State) (n : TriadId) (l : Lane) (agree : Bool),
    (∀ c p r, presented s n l = some (c, p, .commit r) → dlaCommit s p r = false) →
    Gives (.commitArrival n l agree) s (fun t => t = s)) ∧
  ∀ (s : State) (n : TriadId) (l : Lane) (c : CoreId) (p : PartId) (r : CommitRec),
    presented s n l = some (c, p, .commit r) → dlaCommit s p r = true → s.triads[n].voter.wait = [] →
    (s.triads[n].voter.cur = [] → Gives (.commitArrival n l true) s (fun t =>
      t = { s with cores := t.cores, triads := t.triads } ∧
      t.cores[c] = { s.cores[c] with out := none } ∧ (∀ d : CoreId, d ≠ c → t.cores[d] = s.cores[d]) ∧
      t.triads[n] = { s.triads[n] with voter := { cur := [⟨l, .commit r, s.tb⟩], wait := [] } } ∧
      (∀ m : TriadId, m ≠ n → t.triads[m] = s.triads[m]))) ∧
    (∀ (a : Arr) (d : CoreId), s.triads[n].voter.cur = [a] → a.msg = .commit r → a.lane ≠ l →
      s.triads[n].mode = .triad → s.triads[n].cores[a.lane] = some d → d ≠ c →
      r.kind = 1 → r.sub / 16 = 3 ∨ r.sub / 16 = 4 → s.tb + 6 < s.scn.nextB →
      (ownerOf s (.signal r.signal) = some p → s.triads[n].hnd.nmis = [] → s.saf.dlaActive = false ∨ p ≠ 0 →
        (∀ m : Lane, SMap.wf 0 s.pim.img[m].cur = true) → Gives (.commitArrival n l true) s (fun t =>
          (∀ (m : Lane) (k : Nat), SMap.get 0 t.pim.img[m].cur k =
            if k = r.signal.key then r.signal.norm r.value else SMap.get 0 s.pim.img[m].cur k) ∧
          (∀ e ∈ [c, d], t.cores[e].run = .running ∧ t.cores[e].seq = s.cores[e].seq + 1 ∧ t.cores[e].count = 0 ∧
            t.cores[e].out = none ∧ t.cores[e].g = s.cores[e].g ∧ t.cores[e].pc = s.cores[e].pc) ∧
          (∀ e : CoreId, e ≠ c → e ≠ d → t.cores[e] = s.cores[e]) ∧
          t.triads[n].commits = s.triads[n].commits + 1 ∧ t.triads[n].voter.cur = [] ∧
          (∀ m : Lane, m ≠ a.lane → m ≠ l → t.triads[n].voter.wait =
            if s.triads[n].cores[m].isSome then
              [{ record := r, stamp := t.tb, third := m, arrs := [a, ⟨l, .commit r, s.tb⟩], nmi := none }] else []) ∧
          t.banks = s.banks ∧ t.err = s.err ∧ ∃ k : Nat, 4 ≤ k ∧ k ≤ 6 ∧ t.tb = tbAt s (s.tb + k))) ∧
      (ownerOf s (.signal r.signal) ≠ some p → s.parts[p].st ≠ .stopped → s.err.vq.length < 32 →
        Gives (.commitArrival n l true) s (fun t =>
          t.parts[p].st = .stopped ∧ t.pim = s.pim ∧
          ∃ k : Nat, 4 ≤ k ∧ k ≤ 6 ∧ RaisedV 0x0210 (whoOf n) (triArg s n) r.seq { s with tb := tbAt s (s.tb + k) } t)))

/-- R129, R136: the second matching trap report of a triad takes the trap: its VITAL event is raised with the position,
the partition stops, and the triad's capture set holds the trap unless it holds one. ARG_A names the core and lane of the first of
the two arrivals, a choice of the model (log entry 16). Where the lane presents no trap report, nothing happens. -/
def Obligations.TrapVotes : Prop :=
  (∀ (s : State) (n : TriadId) (l : Lane) (agree : Bool), (∀ c p r, presented s n l ≠ some (c, p, .trap r)) →
    Gives (.trapReportArrival n l agree) s (fun t => t = s)) ∧
  ∀ (s : State) (n : TriadId) (l : Lane) (c : CoreId) (p : PartId) (r : TrapRec) (a : Arr),
    presented s n l = some (c, p, .trap r) → s.triads[n].voter = { cur := [a], wait := [] } →
    a.msg = .trap r → s.triads[n].mode = .triad → s.parts[p].st ≠ .stopped →
    s.err.vq.length < 32 → Gives (.trapReportArrival n l true) s (fun t =>
      t.parts[p].st = .stopped ∧
      RaisedV r.code (whoOf n) (coreArg s n a.lane) (r.pc.setWidth 32) s t ∧
      t.triads[n].trap.valid = true ∧
      (s.triads[n].trap.valid = false → t.triads[n].trap.pc = r.pc ∧ t.triads[n].trap.addr = r.addr ∧
        t.triads[n].trap.code = BitVec.ofNat 8 r.code ∧ t.triads[n].trap.cyc = w32 s.scn.cycle) ∧
      (s.triads[n].trap.valid = true → t.triads[n].trap = s.triads[n].trap))

/-- R41, R46, R61, R70: when a lag window ends without the third lane's record, that lane is odd: ODD_LATE is raised, the
core leaves the lane, the triad goes on as a pair, and Heel starts for the lane's bank. -/
def Obligations.LaneOddAtWindowEnd : Prop :=
  ∀ (s : State) (n : TriadId) (p : PartId) (w : Rel) (rest : List Rel) (c : CoreId),
    runningPart s n = some p → s.triads[n].voter = { cur := [], wait := w :: rest } →
    s.triads[n].cores[w.third] = some c → s.triads[n].hnd.isOpen = false → s.err.vq.length < 32 →
    Gives (.lagWindowExpiry n) s (fun t =>
      t.tb = tbAt s (w.stamp + s.tri.lagWinAct.toNat * 50) ∧
      t.triads[n].mode = .pair ∧ t.triads[n].odd = some w.third ∧ t.triads[n].cores[w.third] = none ∧
      (∀ m : Lane, m ≠ w.third → t.triads[n].cores[m] = s.triads[n].cores[m]) ∧
      t.cores[c].st = .odd ∧ t.cores[c].run = .idle ∧
      t.triads[n].heel.bank = some w.third ∧ t.triads[n].heel.st ≠ .none ∧
      RaisedV 0x0202 (whoOf n) (coreArg s n w.third) w.record.seq
        { s with tb := tbAt s (w.stamp + s.tri.lagWinAct.toNat * 50) } t)

/-- R26, R38, R43, R53, R462, R463: what stops a triad: a voter lane whose decision differs and an enable that disagrees
(VOTER_FAULT), two differing records and no third within the window (VOTE_UNRESOLVED), the end of the handler's budget
(HANDLER_OVERRUN, the second VITAL event of the interval). The partition and the cores stop at once. Two records that match
stop nothing when their window ends. ARG_A of VOTER_FAULT and VOTE_UNRESOLVED is that of log entry 16. -/
def Obligations.TriadStops : Prop :=
  ∀ (s : State) (n : TriadId) (p : PartId), runningPart s n = some p → s.err.vq.length < 32 →
    s.scn.mode ≠ .safe → s.scn.mode ≠ .shutdown → (∀ m : TriadId, m ≠ n → s.triads[m].part ≠ some p) →
    let stopped := fun t : State =>
      t.triads[n].mode = .stopped ∧ t.triads[n].stopCycle = some s.scn.cycle ∧ t.parts[p].st = .stopped ∧
      ∀ (l : Lane) (c : CoreId), s.triads[n].cores[l] = some c → t.cores[c].run = .idle ∧ t.cores[c].out = none
    (∀ l c r, presented s n l = some (c, p, .commit r) → dlaCommit s p r = true → Gives (.commitArrival n l false) s (fun t =>
      stopped t ∧ RaisedV 0x0208 (whoOf n) (triArg s n) r.seq s t ∧ t.pim = s.pim)) ∧
    Gives (.enableDisagreement n) s (fun t => stopped t ∧ RaisedV 0x0208 (whoOf n) (triArg s n) 0 s t) ∧
    (∀ a b, s.triads[n].mode = .triad → s.triads[n].voter = { cur := [a, b], wait := [] } →
      (msgMatch a.msg b.msg = false → Gives (.lagWindowExpiry n) s (fun t => stopped t ∧
        RaisedV 0x0204 (whoOf n) (triArg s n) a.msg.seq
          { s with tb := tbAt s (b.stamp + s.tri.lagWinAct.toNat * 50) } t)) ∧
      (msgMatch a.msg b.msg = true → Gives (.lagWindowExpiry n) s (fun t =>
        t = { s with tb := tbAt s (b.stamp + s.tri.lagWinAct.toNat * 50) }))) ∧
    (s.triads[n].hnd.isOpen = true → s.triads[n].hnd.taken = true →
      Gives (.handlerBudgetExpiry n) s (fun t => stopped t ∧
        RaisedV 0x0F02 (whoOf n) 0 0 { s with tb := tbAt s (s.triads[n].hnd.budgetFrom + 20000) } t))

/-! ### The cycle -/

/-- R9, R139, R142, R143, R145, R154: in every mode but START and SHUTDOWN a boundary completes: the cycle number counts on, and B
is stamped with the tick at which it was due. Without a request for SHUTDOWN the shadow values of the settings take effect, the
voter's and the scrubber's, the budgets, SAFE_EXIT and the clocks', and the boundary ends with every budget armed with its active
value, the next boundary T_cyc after B, and the boundary actions as the phase. AGREE_END completes once in a cycle, no later than R143 allows, and Solve or what follows it begins. In
START and SHUTDOWN no boundary occurs and nothing happens; with PLL-T stopped none comes (R436). -/
def Obligations.CycleStages : Prop :=
  (∀ (s : State) (b : BoundaryIn), s.scn.mode ≠ .start → s.scn.mode ≠ .shutdown → s.scn.cycle ≠ 0 → s.clk.stopped = false →
    (∀ q ∈ s.scn.reqs, q.2 ≠ .mode .shutdown) → Gives (.boundary b) s (fun t =>
      t.scn.mode ≠ .shutdown ∧ t.scn.mode ≠ .start ∧
      t.scn.cycle = s.scn.cycle + 1 ∧ t.scn.bTb = s.scn.nextB ∧
      (t.tri.lagWinAct = s.tri.lagWinSh ∧ t.tri.lagWarnAct = s.tri.lagWarnSh ∧ t.tri.pairLimitAct = s.tri.pairLimitSh ∧
        t.tri.finalPagesAct = s.tri.finalPagesSh ∧ t.tri.retestAct = s.tri.retestSh ∧ t.tri.scrubAct = s.tri.scrubSh) ∧
      ((∀ p : PartId, t.parts[p].budgetAct = s.parts[p].budgetSh) ∧ (∀ k : NvId, t.nvs[k].budgetAct = s.nvs[k].budgetSh) ∧
        t.scn.safeExitAct = s.scn.safeExitSh) ∧
      (t.clk.retWinAct = s.clk.retWinSh ∧ t.clk.steerAct = s.clk.steerSh ∧ t.clk.autoAct = s.clk.autoSh ∧
        t.clk.sscAct = s.clk.sscSh ∧ t.clk.divAct = s.clk.divSh) ∧
      t.scn.nextB = t.scn.bTb + t.scn.tcycAct.toNat * 10000 ∧ t.scn.phase = 1 ∧ t.scn.agreed = false ∧
      ∀ p : PartId, t.parts[p].budgetArmed = t.parts[p].budgetAct)) ∧
  (∀ s : State, s.scn.mode ≠ .start → s.scn.mode ≠ .shutdown → s.scn.cycle ≠ 0 → s.scn.agreed = false →
    Gives .agreeEnd s (fun t => t.scn.agreed = true ∧ (t.scn.phase = 2 ∨ t.scn.phase = 3) ∧
      t.scn.agreeTb ≤ s.scn.bTb + 100000 + (s.tri.finalPagesAct.toNat - 128) * 512 / 10 + s.olc.carryUs * 100)) ∧
  (∀ s : State, s.scn.agreed = true → Gives .agreeEnd s (fun t => t = s)) ∧
  ∀ (s : State) (b : BoundaryIn),
    (s.scn.mode = .start ∨ s.scn.mode = .shutdown →
      Gives (.boundary b) s (fun t => t = s) ∧ Gives .agreeEnd s (fun t => t = s)) ∧
    (s.clk.stopped = true → Gives (.boundary b) s (fun t => t = s))

/-- R102: partition entry sets PC, IB, the registers, the call stack, the counter and the sequence number, and the
ENTRY record is the first one fed; a non-vital partition enters in the same way with its own descriptor's values. A
STATION_LOST call (R334) and an NMI (R135) follow the record. That the call comes without an instruction, with its entry on the
stack and its record of kind 0x02, and that one whose instance step 2 of R116 refuses traps there with IB_FAULT (0x0228), are
readings of the model (log entry 43). R134, R461: RETN in a handler restores PC, IB and G1 to G31 and feeds no record; the lane's
marker goes to the voter, so of the triads only the handling interval of the lane's own may change. RDE gives the code of the event
being handled, 0 outside a handler (R110). -/
def Obligations.PartitionEntry : Prop :=
  (∀ (s : State) (c : CoreId) (x : CoreCtx) (n : TriadId) (l : Lane) (p : PartId), Runs s c x → x.who = .vital n l p →
    let k := s.cores[c]
    ∀ pc ib g, k.nmiSave = some (pc, ib, g) → Gives (.retn c) s (fun t =>
      t = { s with cores := t.cores, triads := t.triads } ∧
      (∀ d : CoreId, d ≠ c → t.cores[d] = s.cores[d]) ∧
      t.cores[c].g = g ∧ t.cores[c].pc = pc ∧
      KeepsCore { k with ib := ib, nmiSave := none, nmiCode := 0 } t.cores[c] ∧
      Retires true [] k t.cores[c] ∧
      (∀ m : TriadId, m ≠ n → t.triads[m] = s.triads[m]) ∧
      t.triads[n] = { s.triads[n] with hnd := t.triads[n].hnd })) ∧
  (∀ (s : State) (c : CoreId) (x : CoreCtx) (d : Reg), Runs s c x →
    Gives (.rde c d) s
      (Wrote c x d (if s.cores[c].nmiSave = none then 0 else BitVec.ofNat 32 s.cores[c].nmiCode) s)) ∧
  (∀ (s : State) (c : CoreId) (n : NvId) (rest : List NvId) (d : NvDesc), s.cores[c].nvIdle = n :: rest →
    nvDesc s n = some d →
    let e := (nvStartNext c s).cores[c]
    (∀ r : Reg, e.reg r = 0) ∧ e.pc = BitVec.ofNat 22 d.entry ∧ e.ib = d.rootIb ∧ e.stack = [] ∧ e.count = 0 ∧
    e.seq = 1 ∧ e.run = .running ∧ e.nv = some n) ∧
  ∀ (d : PartDesc) (p : PartId) (cycle : Nat) (k : Core),
    let e := laneEnter d p cycle false none k
    (∀ r : Reg, e.reg r = 0) ∧ e.pc = BitVec.ofNat 22 d.entry ∧ e.ib = d.rootIb ∧ e.stack = [] ∧ e.count = 0 ∧
    e.seq = 1 ∧ e.run = .running ∧ e.nmiSave = none ∧ e.sram = k.sram ∧
    e.sig = crc64 (recBytes 0 p.val (w32 cycle) (w32 (cycle / 2 ^ 32 % 2 ^ 16))) ∧
    (d.lostEntry ≠ 0 → instOk (d.sizeMib * 1048576) d.lostInst = false → laneEnter d p cycle true none k =
      { e with run := .trapped,
               out := some (.trap { code := 0x0228, seq := e.seq, pc := e.pc, addr := d.lostInst }) }) ∧
    (d.lostEntry ≠ 0 → instOk (d.sizeMib * 1048576) d.lostInst = true → laneEnter d p cycle true none k =
      { e with pc := BitVec.ofNat 22 d.lostEntry, ib := d.lostInst, stack := [(e.pc, e.ib)],
               sig := crc64From e.sig (recBytes 2 0 0 d.lostInst) }) ∧
    (∀ code, d.nmiEntry ≠ 0 → laneEnter d p cycle false (some code) k =
      { e with pc := BitVec.ofNat 22 d.nmiEntry, nmiSave := some (e.pc, e.ib, e.g), nmiCode := code }) ∧
    (∀ code, d.nmiEntry = 0 → laneEnter d p cycle false (some code) k = e)

/-- R154, R156 to R158: the watchdog at B + T_cyc finds every partition that is still solving, the budget its partition:
an overrun of a partition that is not isolated is FATAL (CYCLE_OVERRUN) and leads to SAFE; an isolated one stops alone
with PART_OVERRUN, while the other partitions and every triad go on. A non-vital partition past its budget is cut, with
NV_OVERRUN. Where nothing has overrun, and with PLL-T stopped (R436), the expiries change nothing. -/
def Obligations.Overruns : Prop :=
  ∀ (s : State) (p : PartId), s.scn.mode = .run → s.err.vq.length < 32 →
    let alone := fun t : State => t.scn.mode = .run ∧ t.parts[p].st = .stopped ∧ t.parts[p].entered = false ∧
      (∀ q : PartId, q ≠ p → t.parts[q] = s.parts[q]) ∧ ∀ m : TriadId, t.triads[m].mode = s.triads[m].mode
    (s.clk.stopped = true → Gives .watchdogExpiry s (fun t => t = s) ∧ Gives (.budgetExpiry p) s (fun t => t = s)) ∧
    (s.clk.stopped = false → s.parts[p].st = .solving → (∀ q : PartId, q ≠ p → s.parts[q].st ≠ .solving ∧ s.parts[q].entered = false) →
      (s.parts[p].isolated = false → Gives .watchdogExpiry s (fun t =>
        t.scn.mode = .safe ∧ t.scn.prev = some .run ∧ t.scn.cause = 0x0301 ∧ t.tb = tbAt s s.scn.nextB ∧
        RaisedV 0x0301 (BitVec.ofNat 8 p.val) (w32 p.val) 0 { s with tb := tbAt s s.scn.nextB } t)) ∧
      (s.parts[p].isolated = true → ∀ n, triadOf s p = some n → runningPart s n = some p → Gives .watchdogExpiry s (fun t =>
        alone t ∧ t.tb = tbAt s s.scn.nextB ∧
        RaisedV 0x0302 (whoOf n) (w32 p.val) 0 { s with tb := tbAt s s.scn.nextB } t))) ∧
    ((∀ q : PartId, s.parts[q].st ≠ .solving ∧ s.parts[q].entered = false) →
      Gives .watchdogExpiry s (fun t => t = s)) ∧
    (s.clk.stopped = false → s.parts[p].entered = true → s.parts[p].budgetArmed ≠ 0 →
      let at_ := tbAt s (s.scn.agreeTb + s.parts[p].budgetArmed.toNat * 100)
      (s.parts[p].isolated = false → Gives (.budgetExpiry p) s (fun t =>
        t.scn.mode = .safe ∧ t.tb = at_ ∧ (s.scn.ovrValid = false → t.scn.ovrPart = BitVec.ofNat 3 p.val ∧
          t.scn.ovrKind = 1) ∧ RaisedV 0x0301 (BitVec.ofNat 8 p.val) (w32 p.val) 0 { s with tb := at_ } t)) ∧
      (s.parts[p].isolated = true → ∀ n, triadOf s p = some n → runningPart s n = some p → Gives (.budgetExpiry p) s (fun t =>
        alone t ∧ t.tb = at_ ∧ RaisedV 0x0302 (whoOf n) (w32 p.val) 0 { s with tb := at_ } t))) ∧
    (s.parts[p].entered = false ∨ s.parts[p].budgetArmed = 0 → Gives (.budgetExpiry p) s (fun t => t = s)) ∧
    (∀ k : NvId, (∀ d : CoreId, s.cores[d].nv ≠ some k) ∨ s.nvs[k].st ≠ .running ∨ s.nvs[k].budgetAct = 0 →
      Gives (.nvBudgetExpiry k) s (fun t => t = s)) ∧
    (∀ (k : NvId) (c : CoreId), (∀ d : CoreId, s.cores[d].nv = some k ↔ d = c) → s.nvs[k].st = .running →
      s.nvs[k].budgetAct ≠ 0 → k ∉ s.cores[c].nvIdle →
      let at_ := tbAt s (s.cores[c].nvSince + s.nvs[k].budgetAct.toNat * 100)
      Gives (.nvBudgetExpiry k) s (fun t =>
        t.nvs[k].st = .cut ∧ t.tb = at_ ∧ t.parts = s.parts ∧ t.triads = s.triads ∧ t.banks = s.banks ∧
        RaisedNv 0x0303 (BitVec.ofNat 8 (8 + k.val)) (w32 (8 + k.val)) 0 { s with tb := at_ } t))

/-- R55, R56, R57, R144, R328, R362, R396, R407, R422: what the end of an Emit makes available, once: its Ubuno buffers are due
for the next bus cycle, its CAN entries are requests, its mirror blocks are current unless the mode is STOP or SAFE, its control
words are used up, and a partition that waited for it solves; after a stepped cycle no Ubuno buffer is due (R151). A channel's
credit ends at the boundary that ends the last cycle it was given for, and its code stops there, unless a hold-over begins; a
code read back wrong latches the channel and its gang OFF with DYN_CODE_FAULT. Without an Emit, without a credit that ends, and
on a channel that is not vital or latched already, nothing happens. -/
def Obligations.OutputsLapse : Prop :=
  ∀ (s : State),
    (∀ p : PartId, s.parts[p].emitting = true → Gives (.emitEnd p) s (fun t =>
      t.parts[p].emitting = false ∧ t.banks = s.banks ∧
      (s.parts[p].emitStepped = false → ∀ b : Fin 2, t.ub[b].copyDue[p] = true ∧ t.ub[b].copyCyc[p] = s.parts[p].releaseCyc) ∧
      (s.parts[p].emitStepped = true → ∀ b : Fin 2, t.ub[b].copyDue = s.ub[b].copyDue) ∧
      (s.parts[p].emitStepped = false → ∀ (c : Fin 4) (e : Nat) (w : Word), (e, w) ∈ s.can[c].ctl →
        (∀ v, (e, v) ∈ s.can[c].ctl → v = w) → ownerOf s (.canTx c e) = some p → bit w 31 = true → bit w 30 = false →
        canMute s.can[c] = false →
        (let f := canEntryFrame s.can[c] e; ¬ (bit f.id 31 = true ∧ bit f.id 30 = true) ∧ (f.brs = true → bit f.id 31 = true)) →
        ∃ r ∈ t.can[c].reqs ++ t.can[c].waiting, r.entry = e ∧ r.owner = .vital p ∧ r.cyc = s.scn.cycle ∧
          r.frame = canEntryFrame s.can[c] e ∧ r.oneShot = bit w 29 ∧ r.cancel = false) ∧
      (∀ (c : Fin 4), ∀ x ∈ t.can[c].ctl, ownerOf s (.canTx c x.1) ≠ some p) ∧
      (∀ x ∈ t.hst.statCtl, ownerOf s (.status x.2.1) ≠ some p) ∧
      (s.scn.mode = .stop ∨ s.scn.mode = .safe → t.rck.mirCur = s.rck.mirCur) ∧
      (s.scn.mode ≠ .stop → s.scn.mode ≠ .safe → SMap.wf 0 s.rck.mirCur = true → ∀ j i : Nat,
        ownerOf s (.mirror j) = some p → i < (if j = 0 then 192 else 256) →
        let o := (if j = 0 then 0x40 else 0x100 * j) + i
        SMap.get 0 t.rck.mirCur o = SMap.get 0 s.rck.mirNext o) ∧
      (∀ n d, triadOf s p = some n → partDesc s p = some d → s.parts[p].entered = true → s.parts[p].st = .ready →
        t.parts[p].st = .solving))) ∧
    (∀ p : PartId, s.parts[p].emitting = false → Gives (.emitEnd p) s (fun t => t = s)) ∧
    (∀ ch : Chan, (∀ c, s.dio.outs[ch].credit = some c → s.scn.cycle < c) →
      Gives (.creditExpiry ch) s (fun t => t = s)) ∧
    (∀ ch : Chan, s.dio.outs[ch].vital = false ∨ bit s.tri.dynFault ch.val = true →
      Gives (.dynCodeReadbackMismatch ch) s (fun t => t = s)) ∧
    (∀ (ch : Chan) (c : Nat), s.dio.outs[ch].credit = some c → c ≤ s.scn.cycle →
      let held := s.dio.outs[ch].emitsOn = true ∧ s.rck.holdOver = some (s.scn.cycle + 1)
      (¬ held → Gives (.creditExpiry ch) s (fun t =>
        t.dio.outs[ch].credit = none ∧ t.dio.outs[ch].code = false ∧ t.tb = tbAt s s.scn.nextB ∧
        (s.dio.outs[ch].code = true → t.dio.outs[ch].stopAt = tbAt s s.scn.nextB) ∧
        (∀ m : Chan, m ≠ ch → t.dio.outs[m].credit = s.dio.outs[m].credit) ∧
        t.banks = s.banks ∧ t.cores = s.cores)) ∧
      (held → Gives (.creditExpiry ch) s (fun t => t = s))) ∧
    (∀ ch : Chan, s.dio.outs[ch].vital = true → suppressed s ch = false → bit s.tri.dynFault ch.val = false →
      s.variant ≠ .trv16b → s.err.vq.length < 32 → Gives (.dynCodeReadbackMismatch ch) s (fun t =>
        (∀ m ∈ gangOf s ch, bit t.tri.dynFault m.val = true ∧ t.dio.outs[m].code = false) ∧
        RaisedV 0x0209 (match chanTriad s ch with
          | some n => whoOf n
          | none => 0xFF) 0 0 s t))

/-! ### Heel, the Kennel, the reserve, the scrubber -/

/-- R76, R85, R87, R90, R481: the times that Heel, the Kennel and the reserve wait for: PAIR_LIMIT seconds as a pair, 1 s
after an attempt that found invalid conditions, RETEST hours as reserve; what waits is due at the next boundary, and in START, or in
SAFE before its end, a test begins at once. A Kennel test or quick check ends: a pass is noted for the next boundary; a failure of the test leaves the
core in the Kennel and raises KENNEL_FAIL; invalid conditions wait for another attempt. -/
def Obligations.KennelOutcomes : Prop :=
  ∀ (s : State) (n : TriadId) (c : CoreId),
    let other := fun t : State => ∀ d : CoreId, d ≠ c → t.cores[d] = s.cores[d]
    (s.triads[n].mode = .pair → s.tri.pairLimitAct ≠ 0 → Gives (.pairLimitExpiry n) s (fun t =>
      t = { s with tb := tbAt s (s.triads[n].pairSince + s.tri.pairLimitAct.toNat * 100000000) })) ∧
    (∀ i ∈ [(Instr.kennelRetryDue c, 100000000), (.reserveRetestDue c, s.tri.retestAct.toNat * 360000000000)],
      (i.1 = .kennelRetryDue c → s.cores[c].st = .kennel ∧ s.cores[c].ken = .waitInvalid ∧ inStart s = false) →
      (i.1 = .reserveRetestDue c → s.cores[c].st = .reserve ∧ s.tri.retestAct ≠ 0) →
      Gives i.1 s (fun t =>
        t = { s with tb := tbAt s (s.cores[c].kenAt + i.2), cores := t.cores } ∧
        t.cores[c] = { s.cores[c] with due := true } ∧ other t)) ∧
    (s.cores[c].st = .kennel → s.cores[c].ken = .waitInvalid → inStart s = true → testCond s = true →
      Gives (.kennelRetryDue c) s (fun t => t.tb = tbAt s (s.cores[c].kenAt + 100000000) ∧ other t ∧
        t.cores[c].ken = (if s.cores[c].kenQuick then .quick else .test) ∧ t.cores[c].kenResult = none)) ∧
    (s.cores[c].st = .kennel → s.cores[c].kenResult = none →
      (s.cores[c].ken = .test →
        Gives (.kennelTestEnd c .pass) s (fun t => t = { s with cores := t.cores, log := t.log } ∧
          t.cores[c] = { s.cores[c] with kenResult := some (.pass, s.tb) } ∧ other t) ∧
        Gives (.kennelTestEnd c .fail) s (fun t =>
          t.cores[c] = { s.cores[c] with ken := .failed, kenResult := some (.fail, s.tb) } ∧
          other t ∧ t.triads = s.triads ∧ t.banks = s.banks ∧ RaisedNv 0x0219 0xFF (w32 c.val) 0 s t) ∧
        Gives (.kennelTestEnd c .invalid) s (fun t => t.cores[c].ken = .waitInvalid ∧ t.triads = s.triads)) ∧
      (∀ (l : Lane) (v : Vector KResult 3), s.cores[c].ken = .quick → s.triads[n].leashing = true →
        s.triads[n].cores[l] = some c → (∀ m : Lane, m ≠ l → s.triads[n].cores[m] = none) → v[l] = .pass →
        Gives (.quickKennelCheckEnd n v) s (fun t => t = { s with cores := t.cores, log := t.log } ∧
          t.cores[c] = { s.cores[c] with kenResult := some (.pass, s.tb) })))

/-- R71, R73, R74, R78, R80: the end of a pass of Heel counts the pass (up to 255). If no further pass is due the Heel leaves
the engine and waits; else it waits for the engine, while another triad's pass runs on it, or its next pass has begun. Only the
bank of the lane found odd is rewritten, and each byte that changes in it takes the value of another bank. Of a page, if every
word of it is intact and equal in the two healthy banks, the odd bank takes exactly the words in which it differs or fails; else
nothing is rewritten and the page stays to be judged again. A triad whose Heel runs no pass ends none. The scrubber on a 64-bit
word of a quiescent partition's region: with a majority, the bank that differs takes the word of the others and every other byte
stays; without one, the triad stops with NO_COPY_MAJORITY, with the ARG_A of log entry 16. A region that is not quiescent is not
judged, nor the system area during Gather and Agree. -/
def Obligations.HeelAndScrubber : Prop :=
  (∀ (s : State) (n : TriadId), s.triads[n].heel.running = false → Gives (.heelPassEnd n) s (fun t => t = s)) ∧
  (∀ (s : State) (n : TriadId) (p : PartId) (l : Lane), s.triads[n].heel.running = true →
    s.triads[n].heel.bank = some l → s.triads[n].part = some p → (∀ m : Lane, SMap.wf 0#8 s.banks[m] = true) →
    Gives (.heelPassEnd n) s (fun t =>
      let h := t.triads[n].heel
      h.pass = min (s.triads[n].heel.pass + 1) 255 ∧ h.bank = some l ∧
      (h.st = .waitReserve ∧ heelDue t n = false ∨ h.st = .catchup ∨
        h.st = .waitEngine ∧ ∃ m : TriadId, m ≠ n ∧ t.triads[m].heel.running = true ∧ t.triads[m].heel.bank = some l) ∧
      (∀ m : Lane, m ≠ l → t.banks[m] = s.banks[m]) ∧
      (∀ o : Nat, bankByte t l o = bankByte s l o ∨ bankByte t l o = bankByte s (otherLane l) o) ∧
      ∀ k : Nat, s.triads[n].heel.st = .catchup → s.triads[n].heel.pages = [k] →
        (pageAgrees s p l k = true →
          (∀ o : Nat, bankByte t l o =
            if o / 8 ∈ pageNeeds s p l k then bankByte s (otherLane l) o else bankByte s l o) ∧
          h.fix = s.triads[n].heel.fix + if pageNeeds s p l k = [] then 0 else 1) ∧
        (pageAgrees s p l k = false → t.banks = s.banks ∧ (k ∈ h.unres ∨ k ∈ h.pages)))) ∧
  (∀ (s : State) (ofs : Nat) (p : PartId) (k : Nat), partScrub s p = false →
    (ofs < 0xE0000000 → partAt s ofs = some p → Gives (.scrubJudge (.bank ofs)) s (fun t => t = s)) ∧
    Gives (.scrubJudge (.slice p k)) s (fun t => t = s)) ∧
  (∀ s : State, sysScrub s = false → ∀ (i : Nat) (w : Fin 3) (p : PartId) (k : NvId),
    ∀ x ∈ [ScrubTarget.table i, .image w i, .force i, .gaz i, .owner i, .part p, .nonvital k],
      Gives (.scrubJudge x) s (fun t => t = s)) ∧
  ∀ (s : State) (ofs : Nat) (p : PartId) (n : TriadId), ofs < 0xE0000000 → ofs % 8 = 0 → partAt s ofs = some p →
    triadOf s p = some n → partScrub s p = true → (∀ m : Lane, SMap.wf 0#8 s.banks[m] = true) →
    (∀ b : Lane, judgeRegion s p (ofs / 8) = .repair b → Gives (.scrubJudge (.bank ofs)) s (fun t =>
      ∀ (m : Lane) (o : Nat), bankByte t m o =
        if m = b ∧ ofs ≤ o ∧ o < ofs + 8 then bankByte s (otherLane b) o else bankByte s m o)) ∧
    (judgeRegion s p (ofs / 8) = .fine → Gives (.scrubJudge (.bank ofs)) s (fun t =>
      t = { s with eccSoft := t.eccSoft })) ∧
    (judgeRegion s p (ofs / 8) = .noMajority → formed s n = true → s.err.vq.length < 32 →
      Gives (.scrubJudge (.bank ofs)) s (fun t => t.triads[n].mode = .stopped ∧ t.banks = s.banks ∧
        RaisedV 0x0211 (whoOf n) (triArg s n) 0 s t))

/-! ### Clocks, gates, check values, Survey, events -/

/-- R432 to R436: a monitor window in range counts toward a stable XO; one out of range while TB runs from XO fails XO
and asks for the switch; the switch completes on the edges or by the escape, not to a failed IO; TB then runs from IO and
CLK_XO_FAIL is raised; IO_FAIL suspends the monitor and takes the reference of a TB that has no other; edges that return
resume it; TB without a reference is FATAL. -/
def Obligations.References : Prop :=
  ∀ (s : State) (n : Nat),
    (s.clk.ioOk = true → 973 ≤ n → n ≤ 1075 → Gives (.monitorWindow n) s (fun t =>
      t = { s with clk := { s.clk with monCount := BitVec.ofNat 11 n, monSeen := true, xoInRange := true,
                                       goodWins := s.clk.goodWins + 1, xoStable := s.clk.xoStable } })) ∧
    (s.clk.ioOk = true → n < 973 ∨ 1075 < n → s.clk.srcIo = false → s.clk.switchTo = none →
      Gives (.monitorWindow n) s (fun t => t = { s with clk := t.clk } ∧ t.clk.xoInRange = false ∧
        t.clk.goodWins = 0 ∧ t.clk.xoStable = false ∧ t.clk.xoFailed = true ∧ t.clk.switchTo = some true ∧
        t.clk.fails = satInc s.clk.fails)) ∧
    (s.clk.ioOk = false → Gives .referenceSwitch s (fun t => t = s) ∧ Gives .stoppedSourceEscape s (fun t => t = s)) ∧
    (s.clk.switchTo = some true → s.clk.ioOk = true →
      Gives .referenceSwitch s (fun t => t.clk.srcIo = true ∧ t.clk.switchTo = none ∧ t.banks = s.banks ∧
        RaisedNv 0x0101 0xFF 0 (s.clk.monCount.setWidth 32) s t) ∧
      Gives .stoppedSourceEscape s (fun t => t.clk.srcIo = true ∧ t.clk.switchTo = none ∧ t.clk.escape = true ∧
        RaisedNv 0x0103 0xFF 0 0 s t)) ∧
    (s.bst.block ≠ 1 → Gives .xoReturnRequest s (fun t => t = { s with clk := { s.clk with retReq := true } })) ∧
    (s.clk.ioOk = true → Gives .ioFail s (fun t => t.clk.ioOk = false ∧
      (s.clk.srcIo = true ∨ s.clk.xoFailed = true → t.clk.lockT = false ∧ t.clk.noRefFrom = some s.tb) ∧
      (s.clk.srcIo = false → s.clk.xoFailed = false → t.clk.lockT = s.clk.lockT ∧ t.clk.noRefFrom = s.clk.noRefFrom) ∧
      t.cores = s.cores ∧ t.banks = s.banks ∧ RaisedNv 0x0106 0xFF 0 0 s t)) ∧
    (s.clk.ioOk = false → Gives .ioEdgesReturn s (fun t =>
      t = { s with clk := { s.clk with ioOk := true, lockT := true, lockS := true, lockC := true,
                                       noRefFrom := none, stopped := false } })) ∧
    (∀ from_, s.clk.noRefFrom = some from_ → s.scn.mode = .run → s.bst.block = 0xFF → s.err.vq.length < 32 →
      Gives .holdoverExpiry s (fun t => t.scn.mode = .safe ∧ t.clk.lockT = false ∧
        t.tb = tbAt s (from_ + 100000) ∧ RaisedV 0x0105 0xFF 0 0 { s with tb := tbAt s (from_ + 100000) } t))

/-- R437, R438, R445, R504: REFIN locks with an offset and is lost with REFIN_LOST, once; a PPS edge is stamped with TB,
and times out; a ring window's indices, its periods ÷ 4 up to 0xFFFF, stand in the registers with the lowest since START; a sample of the histograms
comes every second, and every minute with a temperature. -/
def Obligations.SamplesOfTime : Prop :=
  ∀ (s : State),
    (∀ o, Gives (.refinLock o) s (fun t => t = { s with clk := { s.clk with refLock := true, ofs := o } })) ∧
    (s.clk.refLock = true → Gives .refinLost s (fun t => t.clk = { s.clk with refLock := false } ∧
      t.cores = s.cores ∧ t.banks = s.banks ∧ RaisedNv 0x0107 0xFF 0 0 s t)) ∧
    Gives .ppsEdge s (fun t =>
      t = { s with clk := { s.clk with pps := BitVec.ofNat 64 s.tb, ppsOk := true } }) ∧
    (s.clk.ppsOk = true → Gives .ppsTimeout s (fun t =>
      t = { s with tb := tbAt s (s.clk.pps.toNat + 110000000), clk := { s.clk with ppsOk := false } })) ∧
    (∀ n : Vector Nat 3, s.scn.mode = .stop → s.bst.ph = .over → s.bst.testFrom = none → Gives (.rsiWindow n) s (fun t =>
      ∀ l : Lane, t.clk.rsi[l].toNat = min (n[l] / 4) 0xFFFF ∧
        t.clk.rsiMin[l].toNat = min (min (n[l] / 4) 0xFFFF) s.clk.rsiMin[l].toNat)) ∧
    (∀ v : BitVec 16,
      Gives (.histogramSample none) s (fun t => t.tb = tbAt s (upTb s (s.log.secFrom + 100000000)) ∧
        t.log.secFrom = s.log.secFrom + 100000000 ∧
        t = { s with tb := t.tb, log := t.log, clk := t.clk, freeDraws := t.freeDraws }) ∧
      Gives (.histogramSample (some v)) s (fun t => t.tb = tbAt s (upTb s (s.log.minFrom + 6000000000)) ∧
        t.log.minFrom = s.log.minFrom + 6000000000 ∧ t.bst.temp = v ∧
        t = { s with tb := t.tb, log := t.log, bst := t.bst }))

/-- R441 to R444: a gate request waits for the block to be idle, or for 1,024 ticks, and then the gate closes; a request
withdrawn before that leaves it open; a request for the rack bus of a twin is refused; a forced gate resets its block, and a
rack read that it interrupts ends with NACK; a reopened gate is open. -/
def Obligations.ClockGates : Prop :=
  ∀ (s : State) (g : Gate), s.bst.block ≠ 1 →
    (gateExists s g = true → g ≠ 6 → bit s.clk.gateReq g.val = false → Gives (.gateRequest g) s (fun t =>
      t = { s with clk := { s.clk with gateReq := bitSet s.clk.gateReq g.val true,
                                       gatePend := bitSet s.clk.gatePend g.val true,
                                       gateSince := vset s.clk.gateSince g s.tb } })) ∧
    (s.rck.role ≠ .single → Gives (.gateRequest 6) s (fun t =>
      t.clk = s.clk ∧ RaisedNv 0x0F01 0xFF 0x820 0 s t)) ∧
    (bit s.clk.gatePend g.val = true →
      Gives (.gateWithdraw g) s (fun t =>
        t = { s with clk := { s.clk with gateReq := bitSet s.clk.gateReq g.val false,
                                         gatePend := bitSet s.clk.gatePend g.val false } }) ∧
      (gateIdle s g = true → Gives (.gateClose g) s (fun t => bit t.clk.gateClosed g.val = true ∧
        bit t.clk.gatePend g.val = false ∧ t.cores = s.cores ∧ t.banks = s.banks)) ∧
      (∀ access : Bool, Gives (.gateForce ⟨g, access⟩) s (fun t =>
        bit t.clk.gateClosed g.val = true ∧ bit t.clk.gatePend g.val = false ∧
        bit t.clk.gateForced g.val = true ∧ t.tb = tbAt s (s.clk.gateSince[g] + 1024) ∧
        t.cores = s.cores ∧ t.banks = s.banks ∧
        (g = 6 → ∀ i : Fin 16, t.rck.parts[i].st = .absent) ∧
        (g = 6 → access = true → t.rck.answer = none ∧ t.rck.given = satInc s.rck.given)))) ∧
    (bit s.clk.gateClosed g.val = true → Gives (.gateReopen g) s (fun t =>
      bit t.clk.gateClosed g.val = false ∧ bit t.clk.gateReq g.val = false ∧ t.cores = s.cores ∧ t.banks = s.banks))

/-- R448 to R457: a unit in PORT: INIT sets the initial value, DATA and DATA_B feed bytes unless BUSY drops them, GO
starts a DMA over the range that it names, whose end feeds the bytes, CHECK compares; a unit in JOBS takes its passes in order and counts them. -/
def Obligations.CheckValueUnits : Prop :=
  ∀ (s : State) (u : Fin 8) (v : Word), s.bst.block ≠ 0x0E →
    let x := s.crc[u]
    let only := fun t : State => t = { s with crc := t.crc } ∧ ∀ w : Fin 8, w ≠ u → t.crc[w] = s.crc[w]
    (x.modeAct = 1 →
      Gives (.crcInit u) s (fun t => only t ∧
        t.crc[u] = { x with run := if u.val < 2 then 0xFFFF else if u.val < 6 then 0xFFFFFFFF else 0 }) ∧
      (x.busy = false →
        Gives (.crcData u v) s (fun t => only t ∧
          t.crc[u] = { x with run := crcUnitFeed u x.run [byteOf v 0, byteOf v 1, byteOf v 2, byteOf v 3] }) ∧
        Gives (.crcDataB u v) s (fun t => only t ∧ t.crc[u] = { x with run := crcUnitFeed u x.run [byteOf v 0] }) ∧
        Gives (.crcGo u) s (fun t => only t ∧ t.crc[u] = { x with
          busy := true, goOfs := x.dmaOfs, goBank := x.dmaBank, goLen := x.dmaLen }) ∧
        (crcTrim u (crcRes u x.run) = crcTrim u x.exp → Gives (.crcCheck u) s (fun t => only t ∧
          t.crc[u] = { x with checkDue := false, ok := true })) ∧
        (crcTrim u (crcRes u x.run) ≠ crcTrim u x.exp → x.ie = false → Gives (.crcCheck u) s (fun t =>
          t.crc[u] = { x with checkDue := false, ok := false, mismatch := true, count := satInc x.count } ∧
          RaisedNv 0x0E02 0xFF (w32 u.val) 0 s t))) ∧
      (x.busy = true → ∀ i ∈ [Instr.crcData u v, .crcDataB u v, .crcGo u], Gives i s (fun t =>
        t.crc[u] = { x with dropped := true } ∧ RaisedNv 0x0E04 0xFF (w32 u.val) 0 s t))) ∧
    (x.modeAct ≠ 1 → ∀ i ∈ [Instr.crcInit u, .crcData u v, .crcDataB u v, .crcGo u, .crcCheck u], Gives i s (fun t =>
      t.crc = s.crc ∧ t.banks = s.banks ∧ t.cores = s.cores)) ∧
    (x.busy = true → x.checkDue = false → Gives (.crcDmaEnd u) s (fun t =>
      let fed := crcUnitFeed u x.run ((List.range x.goLen.toNat).map (fun i => laneByte s (crcBank x.goBank) (x.goOfs.toNat + i)))
      only t ∧ t.crc[u].busy = false ∧
      ((∀ a : Nat, intact s (crcBank x.goBank) a = true) → x.goOfs.toNat + x.goLen.toNat ≤ 0xE0000000 →
        t.crc[u] = { x with busy := false, run := fed }))) ∧
    (∀ (r : JobRun) (rest : List JobRun) (d : PartDesc) (j : CheckJob), x.modeAct = 2 → x.jobs = r :: rest →
      (∀ r ∈ x.jobs, s.parts[r.part].st ≠ .stopped) → partDesc s r.part = some d → d.jobs[r.job]? = some j →
      jobGood s u r.part j r.bank = true → Gives (.crcJobPassEnd u) s (fun t => only t ∧
        t.crc[u] = { x with jobs := rest, doneRun := satInc x.doneRun }))

/-- R226, R227, R237 to R239: at CLOSE_AT every queue that is open is closed, with SVY_CLOSED_LATE for its triad, and the others
stay; a lane's result that a Survey voter does not agree with fails the unit; the end of the lag window without a second lane
fails it too, also of a pair, whose first result it is; after a release the lane that is missing then is odd, and in a pair the unit
fails. -/
def Obligations.SurveyRound : Prop :=
  ∀ (s : State) (n : TriadId) (i : Nat),
    (fld s.svy.cfgAct 8 16 ≠ 0 → s.variant.svy = true → s.scn.mode.bounded = true → s.scn.cycle ≠ 0 → s.svy.round < 2 →
      let at_ := tbAt s (s.scn.bTb + fld s.svy.cfgAct 8 16 * 10000)
      Gives .surveyCloseAt s (fun t => t.tb = at_ ∧ ∀ m : TriadId,
        (s.svy.queues[m].closeBy ≠ 0 → t.svy.queues[m].closeBy = s.svy.queues[m].closeBy) ∧
        (s.svy.queues[m].closeBy = 0 → t.svy.queues[m].closeBy = 3 ∧
          t.svy.queues[m].closeLen = s.svy.queues[m].words.length / 2 * 2 ∧
          (s.err.nq.length < 60 → RaisedNv 0x0605 (whoOf m) (w32 m.val) 0 { s with tb := at_ } t)))) ∧
    (∀ (l : Lane) (q : SvyReq) (a : SvyAns), s.svy.round = 2 → s.svy.failed = false → s.svy.odd ≠ some l →
      (∀ x ∈ s.svy.pres, x.triad = n → x.index = i → x.lane ≠ l) →
      (judgeRound s l).find? (fun x => x.1.triad = n && x.1.index = i) = some (q, a) →
      Gives (.surveyResult l n i false) s (fun t => t.svy.failed = true) ∧
      (svyPresOf s n i = [] → s.svy.agreedAt = [] → Gives (.surveyResult l n i true) s (fun t =>
        t.svy = { s.svy with pres := s.svy.pres ++ [⟨l, n, i, a.words, a.lset, s.tb⟩] } ∧
        t.cores = s.cores ∧ t.parts = s.parts ∧ t.pim = s.pim ∧ t.err = s.err ∧
        (∀ m : Lane, m ≠ l ∨ a.lset = [] → t.banks[m] = s.banks[m])))) ∧
    (∀ a b : SvyPres, s.svy.failed = false → s.svy.odd = none → s.svy.agreedAt = [] → svyPresOf s n i = [a, b] →
      Gives (.surveyLagExpiry n i) s (fun t => t.svy.failed = true ∧ t.tb = tbAt s (b.stamp + fld s.svy.cfgAct 0 8 * 100))) ∧
    (∀ (a : SvyPres) (l : Lane), s.svy.failed = false → s.svy.odd = some l → s.svy.agreedAt = [] → svyPresOf s n i = [a] →
      Gives (.surveyLagExpiry n i) s (fun t => t.svy.failed = true ∧ t.tb = tbAt s (a.stamp + fld s.svy.cfgAct 0 8 * 100))) ∧
    (∀ (at_ : Nat) (l : Lane), s.svy.failed = false → s.svy.agreedAt = [(n, i, at_)] → svyPresOf s n i ≠ [] →
      (∀ x ∈ svyPresOf s n i, x.lane ≠ l) → s.svy.odd ≠ some l →
      (∀ m : Lane, m ≠ l → s.svy.odd = some m ∨ ∃ x ∈ svyPresOf s n i, x.lane = m) →
      (s.svy.odd = none → Gives (.surveyLagExpiry n i) s (fun t => t.svy.odd = some l)) ∧
      (s.svy.odd ≠ none → Gives (.surveyLagExpiry n i) s (fun t => t.svy.failed = true)))

/-- R466 to R468, R385: the oldest entry of the VITAL queue is delivered first, then of the NONVITAL queue: it leaves its
queue and stands in ERR_LAST. R499, R506: an update of the Logbook writes both copies and clears the volatile counters; a
copy whose verify fails raises LOG_WRITE_FAIL; that it keeps what it held, and that if both fail the counts stay, is a reading of
the model (log entry 26). What a good copy receives is the copy chosen with the counts added, the hours and the next UPD_SEQ. A
failure is written into both copies. -/
def Obligations.EventsAndLogbook : Prop :=
  ∀ (s : State) (e : QEv) (rest : List QEv),
    (s.err.vq = e :: rest → Gives .eventDelivery s (fun t =>
      t.err.vq = rest ∧ t.err.lastCode = BitVec.ofNat 16 e.code ∧ t.err.lastCls = BitVec.ofNat 2 e.cls.code)) ∧
    (s.err.vq = [] → s.err.nq = e :: rest → s.err.lostPend = 0 → Gives .eventDelivery s (fun t =>
      t.err.nq = rest ∧ t.err.lastCode = BitVec.ofNat 16 e.code ∧ t.err.lastCls = BitVec.ofNat 2 e.cls.code)) ∧
    (s.err.vq = [] → s.err.nq = [] → Gives .eventDelivery s (fun t => t = s)) ∧
    (s.bst.ph ≠ .off → s.err.nq.length < 62 →
      let at_ := tbAt s (upTb s (s.log.hourFrom + 360000000000))
      let due := { s with tb := at_ }
      let u := { due with log := { s.log with hourFrom := s.log.hourFrom + 360000000000 } }
      let good := updateCopy (logAdd 0x40 ((pohNow u).toNat - logWord (logBase s) 8) u).log.vol
        ((logWord (logBase s) 4 + 1) % 2 ^ 32) (pohNow u).toNat (logBase s)
      Gives (.logUpdate true true) s (fun t =>
        t = { s with tb := at_, nv := { s.nv with logs := t.nv.logs }, log := t.log } ∧ t.log.vol = [] ∧
        t.log.hourFrom = s.log.hourFrom + 360000000000 ∧ t.nv.logs[0] = good ∧ t.nv.logs[1] = good ∧ t.log.hist = s.log.hist) ∧
      Gives (.logUpdate true false) s (fun t => t.log.vol = [] ∧ t.nv.logs[0] = good ∧ t.nv.logs[1] = s.nv.logs[1] ∧
        RaisedNv 0x1104 0xFF 0 0 due t) ∧
      Gives (.logUpdate false true) s (fun t => t.log.vol = [] ∧ t.nv.logs[0] = s.nv.logs[0] ∧ t.nv.logs[1] = good ∧
        RaisedNv 0x1104 0xFF 0 0 due t) ∧
      Gives (.logUpdate false false) s (fun t => t.nv = s.nv ∧ RaisedNv 0x1104 0xFF 0 0 due t ∧
        ∀ k : Nat, k ≠ 0x40 → SMap.get 0 t.log.vol k = SMap.get 0 s.log.vol k)) ∧
    (∀ h rest, s.log.hist = h :: rest → Gives .logHistoryWrite s (fun t =>
      t = { s with nv := { s.nv with logs := t.nv.logs }, log := { s.log with hist := rest } } ∧
      ∀ l : Fin 2, t.nv.logs[l] =
        sealLog (logWord s.nv.logs[l] 4) (logWord s.nv.logs[l] 8) (addHist h s.nv.logs[l])))

/-! ### The host -/

/-- R147, R148, R153, R179, R388, R391, R392, R394, R397, R422: the commands that wait, once steps 1 to 8 pass and their
own conditions hold: the command is outstanding, its SEQ is taken, and the request stands in its queue; nothing else
changes. A mode request that R147 does not allow is REFUSED. -/
def Obligations.HostRequestsWait : Prop :=
  ∀ (s : State) (r : Fin 8) (d : Descriptor),
    let ref := nextRef s r
    let waits := fun (u : State) (t : State) => Outstanding r d false s t ∧ t = { u with hst := t.hst }
    let req := fun q => { s with scn := { s.scn with reqs := s.scn.reqs ++ [(ref, q)] } }
    (d.tagged = true →
      (PassesChecks s r d 2 → d.arg1 = 0 →
        ∀ x ∈ [(Instr.runRequest r d, Mode.run, (3 : Dword)), (.holdRequest r d, .hold, 4), (.stopRequest r d, .stop, 2),
               (.shutdownRequest r d, .shutdown, 6)], d.arg0 = x.2.2 →
          (ModeAllowed s x.2.1 → Gives x.1 s (waits (req (.mode x.2.1)))) ∧
          (¬ ModeAllowed s x.2.1 → Gives x.1 s (fun t => t.scn = s.scn ∧ t.hst.seqs = s.hst.seqs ∧
            ∃ detail, Answered r d 7 detail s t))) ∧
      (PassesChecks s r d 3 → d.arg0 = 0 → d.arg1 = 0 → s.scn.mode = .hold → s.scn.commEn = true →
        s.scn.stepPending = false → Gives (.step r d) s (waits { s with scn := { s.scn with
          reqs := s.scn.reqs ++ [(ref, .step)], stepPending := true } })) ∧
      (PassesChecks s r d 6 → d.arg0 = 0 → d.arg1 = 0 → s.rck.role = .active → bit s.rck.pres 15 = true → s.rck.peerEqual = true →
        s.scn.reqs.any (fun q => q.2 = .handover) = false → Gives (.twinHandover r d) s (waits (req .handover))) ∧
      (∀ c : CoreId, PassesChecks s r d 7 → d.arg0 = BitVec.ofNat 64 c.val → d.arg1 = 0 → c.val < s.variant.cores →
        s.cores[c].st = .unleashed → Gives (.nvRestart r d) s (waits (req (.nvRestart c)))) ∧
      (hreqArgs s d = true →
        (PassesChecks s r d 0x11 → Gives (.hreqSet r d) s (waits { s with pim := { s.pim with
          hreq := s.pim.hreq ++ [(ref, argSig d, hreqVal d)], counted := true } })) ∧
        (PassesChecks s r d 0x57 → s.scn.commEn = true → Gives (.hreqSetDiag r d) s (waits { s with pim := { s.pim with
          hreq := s.pim.hreq ++ [(ref, argSig d, hreqVal d)] } }))) ∧
      (∀ g : Sig, gazSig s (argGaz d) = some g →
        (PassesChecks s r d 0x51 → forceArgs true s d = true → forceFull (forcesNext s) (argGaz d) = false →
          let v := if g.word then w32 d.arg1.toNat else w32 d.arg1.toNat &&& 1
          forceRefusal s s.scn.commEn g v = 0 → Gives (.forceSet r d) s (waits { s with pim := { s.pim with
            cmds := s.pim.cmds ++ [⟨ref, argGaz d, g, some v⟩] } })) ∧
        (PassesChecks s r d 0x52 → forceArgs false s d = true → Gives (.forceClear r d) s (waits { s with pim := { s.pim with
            cmds := s.pim.cmds ++ [⟨ref, argGaz d, g, none⟩] } })))) ∧
    (PassesChecks s r d 0x61 → Gives (.nvMsg r d) s (fun t => Outstanding r d false s t ∧ t = { s with hst := t.hst } ∧
      t.hst.msgs = s.hst.msgs ++ [(ref, d, ringNv s r)]))

/-- R282, R290, R294, R295, R392, R395: the commands that are answered at once with STATUS OK, and what each does;
EXERCISE_STOP on a module without channels is answered ABSENT. That OLC_QUERY leaves RESULT at 0 is a reading of the model (log
entry 47). -/
def Obligations.HostCommandsAnswered : Prop :=
  ∀ (s : State) (r : Fin 8) (d : Descriptor),
    let ok := Answered r d 0 0 s
    (d.arg0 = 0 → d.arg1 = 0 →
      (PassesChecks s r d 1 → Gives (.identify r d) s (fun t => ok t ∧ t = { s with hst := t.hst })) ∧
      (PassesChecks s r d 0x48 → Gives (.olcQuery r d) s (fun t => ok t ∧
        t.olc = { s.olc with result := 0 })) ∧
      (d.tagged = true →
        (PassesChecks s r d 4 → (∃ x, s.saf.desc = some x ∧ x.hostReset = true) → Gives (.resetArm r d) s (fun t =>
          ok t ∧ t.saf = { s.saf with armAt := some s.tb })) ∧
        (∀ at_, PassesChecks s r d 5 → (∃ x, s.saf.desc = some x ∧ x.hostReset = true) → s.saf.armAt = some at_ →
          100000000 ≤ s.tb - at_ → s.tb - at_ ≤ 300000000 → resetBlock s = 0 → Gives (.resetCommit r d) s (fun t =>
            ok t ∧ t.saf = { s.saf with armAt := none, hostAccepted := true })) ∧
        (PassesChecks s r d 0x56 →
          (s.variant ≠ .trv16b → Gives (.exerciseStop r d) s (fun t => ok t ∧ t.saf.exer = none)) ∧
          (s.variant = .trv16b → Gives (.exerciseStop r d) s (fun t => Answered r d 12 0 s t ∧ t.saf = s.saf))))) ∧
    (d.tagged = true → s.variant ≠ .trv16b →
      (∀ k : Fin 4, PassesChecks s r d 0x54 → d.arg0 = BitVec.ofNat 64 k.val → d.arg1 = 0 → (brkCfg s k).isSome = true →
        Gives (.brkTestNow r d) s (fun t => ok t ∧ t.saf.brk[k] = { s.saf.brk[k] with due := true } ∧
          t = { s with hst := t.hst, saf := { s.saf with brk := t.saf.brk } })) ∧
      (∀ (n : Fin 24) (k : Nat), PassesChecks s r d 0x55 → 1 ≤ k → k ≤ 600 →
        d.arg0 = BitVec.ofNat 64 (n.val + 65536 * k) → d.arg1 = 0 → exerDetail s (outChan n) = 0 →
        Gives (.outExercise r d) s (fun t => ok t ∧
          t = { s with hst := t.hst, saf := { s.saf with exer := some (outChan n, k * 10000000) } })))

/-- R383, R387, R390 to R393, R507: the commands that read or write host memory wait for the end of the access; a failed
access completes its command with DMA_ERROR, in the completion queue, or behind it while that is full, and raises HST_DMA_ERROR. With the end of KEY_STORE's read the new key applies, the slot's SEQ restarts on
every ring, and the write to the sealed store begins, which the store holds at its end; a tagged LOG_READ or FORCE_LIST takes
its SEQ at its end, a reading of the model (log entry 67). -/
def Obligations.HostMemoryCommands : Prop :=
  ∀ (s : State) (r : Fin 8) (d : Descriptor),
    (PassesChecks s r d 0x31 → s.scn.mode ≠ .start → fld d.arg0 48 16 = 0 →
      fld d.arg0 0 32 + fld d.arg0 32 16 + 1 ≤ 0x20000 → fld d.arg1 0 2 = 0 → Gives (.logRead r d) s
        (Outstanding r d true s)) ∧
    (PassesChecks s r d 0x53 → d.arg0 = 0 → fld d.arg1 0 2 = 0 → Gives (.forceList r d) s (Outstanding r d true s)) ∧
    (d.tagged = true → fld d.arg1 0 2 = 0 →
      (PassesChecks s r d 8 → fld d.arg0 3 29 = 0 → Gives (.keyStore r d) s (Outstanding r d true s)) ∧
      (PassesChecks s r d 0x41 → fld d.arg0 0 32 ≤ 65536 → Gives (.olcBegin r d) s (Outstanding r d true s)) ∧
      (PassesChecks s r d 0x42 → fld d.arg0 56 8 = 0 → ∀ h : OlcHeader, s.olc.st = .receiving → s.olc.header = some h →
        (∃ x, h.sections[fld d.arg0 48 8]? = some x ∧ fld d.arg0 0 32 + fld d.arg0 32 16 + 1 ≤ x.1) →
        Gives (.olcData r d) s (Outstanding r d true s))) ∧
    (∀ (i : Nat) (c : Cmd) (bytes : List Byte) (h : OlcHeader), dmaCmd s r i = some c →
      Gives (.hostDmaEnd r i false bytes h) s (fun t => (∀ e ∈ t.hst.rings[r].outs, e.no ≠ c.no) ∧
        RaisedNv 0x0C04 0xFF (w32 r.val) (w32 i) s t ∧
        (s.hst.rings[r].en = true → hstIdle s = false → (∀ e ∈ s.hst.rings[r].outs, e.no = c.no → e = c) →
          let x := s.hst.rings[r]
          let entry := fun e : CqEntry => e.typ = 1 ∧ e.id = c.desc.cid ∧ e.a = 10 ∧ e.b = 0 ∧ e.cyc = s.scn.cycle
          (cqFull x = false → x.waitq = [] → ∃ e, t.hst.rings[r].cq = x.cq ++ [e] ∧ entry e) ∧
          (cqFull x = true ∨ x.waitq ≠ [] → ∃ e, t.hst.rings[r].waitq = x.waitq ++ [e] ∧ entry e)))) ∧
    (∀ (i : Nat) (c : Cmd) (bytes : List Byte) (h : OlcHeader), dmaCmd s r i = some c →
      (c.desc.opcode = 8 → bytes.length = 32 → crc32c bytes = w32 (fld c.desc.arg0 32 32) →
        c.desc.tagged = true ∨ storeEmpty s = true → keyDetail s c.desc = 0 →
        let k := argSlot c.desc
        Gives (.hostDmaEnd r i true bytes h) s (fun t => t.hst.slots[k] = some bytes ∧
          t.hst.keyStores = s.hst.keyStores ++ [(⟨r, c.no⟩, k, bytes)] ∧ (∀ q : Fin 8, t.hst.seqs[q][k] = 0) ∧
          (∀ j : Fin 8, j ≠ k → t.hst.slots[j] = s.hst.slots[j]) ∧ t.nv = s.nv)) ∧
      (c.desc.opcode = 0x31 ∨ c.desc.opcode = 0x53 → c.desc.tagged = true →
        s.hst.seqs[r][c.desc.slot].toNat < c.desc.seq.toNat → Gives (.hostDmaEnd r i true bytes h) s (fun t =>
          t.hst.seqs[r][c.desc.slot] = c.desc.seq ∧ ∃ out, t.hst.dmaOut = some (c.desc.arg1, out)))) ∧
    (∀ ref k key rest, s.hst.keyStores = (ref, k, key) :: rest → Gives .sealedStoreWriteEnd s (fun t =>
      t.nv.sealed[k] = some (key, crc32c key) ∧ t.hst.keyStores = rest ∧ t.hst.slots = s.hst.slots ∧
      t.hst.seqs = s.hst.seqs ∧ ∀ j : Fin 8, j ≠ k → t.nv.sealed[j] = s.nv.sealed[j]))

/-- R174, R374, R377 to R383, R530: the link comes up, and what loses it, LINK_DOWN, a cleared Bus Master Enable and PERST,
disables every ring, discards what waits, and raises HST_LINK_LOST; PERST returns the endpoint to reset, its configuration space and
its MSI-X table; a function level reset returns to reset every HST register and the configuration space, and keeps the KEY block
and HST_NONCE. With the link, vectors that nothing masks any more are signalled. Of these, that PERST and a cleared Bus Master
Enable lose the link, which other state a function level reset keeps, what it does to SD and KEYS, and the free configuration space
of a link that comes up are readings of the model (log entries 62, 66, 110, 119). A ring is enabled with aligned bases and
starts empty, and stops at once when disabled; a doorbell in range sets the tail, or frees entries, in a ring in error too; one
out of range puts the ring in error; ring 2 has no SQ; a waiting completion is written when there is room, and its vector
signalled unless MSI-X masks it; the supervision of host requests ends after its boundaries. -/
def Obligations.HostRings : Prop :=
  ∀ (s : State) (r : Fin 8) (v : Word),
    let x := s.hst.rings[r]
    let only := fun t : State => t = { s with hst := { s.hst with rings := t.hst.rings } } ∧
      ∀ q : Fin 8, q ≠ r → t.hst.rings[q] = s.hst.rings[q]
    let errs := fun t : State => t.hst.rings[r].st = .error ∧ RaisedNv 0x0C05 0xFF (w32 r.val) 0 s t
    Gives .linkUp s (fun t =>
      t = { s with hst := { s.hst with link := true, pcie := t.hst.pcie, pba := t.hst.pba, sent := t.hst.sent },
                   freeDraws := t.freeDraws } ∧
      ∀ n : Fin 16,
        let out := bit s.hst.pba n.val && t.hst.pcie.msixEn && !t.hst.pcie.funcMask && !msixMasked s n
        bit t.hst.pba n.val = (bit s.hst.pba n.val && !out) ∧ t.hst.sent[n] = s.hst.sent[n] + if out then 1 else 0) ∧
    Gives .functionLevelReset s (fun t => t.hst.link = false ∧ t.hst = { Hst.init with
      stopped := s.hst.stopped, scanOpen := s.hst.scanOpen, nonce := s.hst.nonce, seqs := s.hst.seqs, slots := s.hst.slots,
      keyStat := s.hst.keyStat, keyStores := s.hst.keyStores, statMem := s.hst.statMem, statCtl := s.hst.statCtl,
      msgs := s.hst.msgs, sent := s.hst.sent, rings := t.hst.rings } ∧
      ∀ q : Fin 8, t.hst.rings[q] = { Ring.init with fetched := s.hst.rings[q].fetched }) ∧
    Gives .perst s (fun t => t.hst.link = false ∧ t.hst.pcie = Pcie.init ∧ t.hst.msix = [] ∧ t.hst.pba = 0 ∧
      ∀ q : Fin 8, t.hst.rings[q] = { s.hst.rings[q] with en := false, st := .disabled, cq := [], waitq := [], outs := [] }) ∧
    (s.hst.link = false → Gives .linkDown s (fun t => t = s) ∧ Gives .busMasterDisable s (fun t => t = s)) ∧
    (s.hst.link = true → ∀ i ∈ [Instr.linkDown, .busMasterDisable, .perst, .functionLevelReset], Gives i s (fun t =>
      t.hst.link = false ∧ (∀ q : Fin 8, t.hst.rings[q].en = false ∧ t.hst.rings[q].cq = [] ∧
        t.hst.rings[q].outs = [] ∧ t.hst.rings[q].waitq = []) ∧
      t.hst.nonce = s.hst.nonce ∧ t.hst.slots = s.hst.slots ∧ t.hst.seqs = s.hst.seqs ∧
      t.pim.linkLost = true ∧ t.cores = s.cores ∧ t.banks = s.banks ∧ RaisedNv 0x0C03 0xFF 0 0 s t)) ∧
    (hstIdle s = false →
      (bit v 31 = true → x.en = false → fld x.sqBase 0 12 = 0 → fld x.cqBase 0 12 = 0 → Gives (.ringEnable r v) s (fun t =>
        only t ∧ t.hst.rings[r].en = true ∧ t.hst.rings[r].st = .running ∧ t.hst.rings[r].sqHead = 0 ∧
        t.hst.rings[r].cqTail = 0 ∧ t.hst.rings[r].phase = true ∧ t.hst.rings[r].outs = [] ∧
        (1 ≤ fld v 0 4 → fld v 0 4 ≤ 12 → t.hst.rings[r].size.toNat = fld v 0 4) ∧
        t.hst.rings[r].vec.toNat = fld v 24 4)) ∧
      (bit v 31 = false → x.en = true → ringFields r v x = x → Gives (.ringDisable r v) s (fun t =>
        only t ∧ t.hst.rings[r] = { x with en := false, st := .disabled, cq := [], waitq := [], outs := [] })) ∧
      (r = 2 → Gives (.sqTailDoorbell r v) s (fun t => only t ∧ t.hst.rings[r] = { x with sqDb := v })) ∧
      (r ≠ 2 → x.st = .running →
        (v.toNat < ringSize x → Gives (.sqTailDoorbell r v) s (fun t =>
          only t ∧ t.hst.rings[r] = { x with sqDb := v, sqTail := v.toNat })) ∧
        (ringSize x ≤ v.toNat → Gives (.sqTailDoorbell r v) s errs)) ∧
      (x.en = true →
        (v.toNat < ringSize x → Gives (.cqHeadDoorbell r v) s (fun t => only t ∧ t.hst.rings[r] = { x with
          cqDb := v, cqHead := v.toNat, cq := x.cq.drop ((v.toNat + ringSize x - x.cqHead) % ringSize x) })) ∧
        (ringSize x ≤ v.toNat → Gives (.cqHeadDoorbell r v) s errs)) ∧
      (∀ e rest, x.waitq = e :: rest → x.en = true → cqFull x = false → Gives (.completionDelivery r) s (fun t =>
        t.hst.rings[r].waitq = rest ∧ t.hst.rings[r].cq = x.cq ++ [{ e with phase := x.phase }] ∧
        t.hst.rings[r].cqTail = (x.cqTail + 1) % ringSize x ∧
        (s.hst.pcie.msixEn = true → s.hst.pcie.funcMask = false → msixMasked s (vecOf x.vec) = false →
          t.hst.sent[vecOf x.vec] = s.hst.sent[vecOf x.vec] + 1)))) ∧
    (s.pim.tmoAct ≠ 0 → s.pim.tmoAct.toNat ≤ s.pim.tmoCnt → s.pim.hostLost = false → Gives .hostRequestTimeout s (fun t =>
      t = { s with pim := { s.pim with hostLost := true, linkLost := true } }))

/-! ### On-line change -/

/-- R193, R201, R205, R206: the commands of ring 4 in the states that accept them: the check, the verify of a staged set,
the verify of the rollback image and the write of the store begin; a discard frees the staged set. -/
def Obligations.OnlineChangeCommands : Prop :=
  ∀ (s : State) (r : Fin 8) (d : Descriptor), d.tagged = true → d.arg0 = 0 → d.arg1 = 0 →
    let waits := fun (o : Olc) (t : State) => Outstanding r d false s t ∧ t = { s with hst := t.hst, olc := o }
    (PassesChecks s r d 0x43 → s.olc.st = .receiving → Gives (.olcEnd r d) s (waits { s.olc with st := .checking })) ∧
    (PassesChecks s r d 0x44 → s.olc.st = .staged → s.scn.mode = .stop ∨ s.scn.mode = .run ∨ s.scn.mode = .hold →
      (s.olc.keyReqAct = true → s.scn.commEn = true) → s.olc.planUs ≤ s.olc.maxUsAct.toNat →
      Gives (.olcActivate r d) s (waits { s.olc with st := .verifying, rolling := false })) ∧
    (PassesChecks s r d 0x46 → s.olc.st = .held → s.olc.accepting = false →
      activateDetail s true (min (planTime (rollbackPlan s).bytes) 0xFFFF) = 0 → Gives (.olcRollback r d) s (fun t =>
        Outstanding r d false s t ∧ t = { s with hst := t.hst, olc := t.olc } ∧ t.olc.st = .verifying ∧
        t.olc.rolling = true)) ∧
    (PassesChecks s r d 0x47 → s.olc.st = .held → s.olc.accepting = false →
      Gives (.olcAccept r d) s (waits { s.olc with accepting := true })) ∧
    (PassesChecks s r d 0x45 → s.olc.st = .receiving ∨ s.olc.st = .staged ∨ s.olc.st = .waiting → s.olc.rollback = none →
      Gives (.olcDiscard r d) s (fun t => Answered r d 0 0 s t ∧ t.olc.st = .idle ∧ t.olc.staged = none ∧
        t.olc.space = [] ∧ t.olc.active = s.olc.active)) ∧
    (PassesChecks s r d 0x43 → s.olc.st ≠ .receiving → Gives (.olcEnd r d) s (fun t =>
      Answered r d 7 8 s t ∧ t.olc = { s.olc with result := 8 }))

/-- R191, R194, R201, R202, R204, R206: the stages of an exchange: three equal verdicts without fault stage the merged
image; different ones, of whichever lanes, refuse it with LANE; a verify that passes waits for its boundary, one that does not gives
the set up; so does the end of the wait; the program store takes the active image when the write ends. What RESULT shows after a
fault or the end of the wait, and that the rollback image goes with the set, are readings of the model (log entry 48). -/
def Obligations.OnlineChangeStages : Prop :=
  ∀ (s : State),
    (∀ (h : OlcHeader) (v : Vector LaneCheck 3), s.olc.st = .checking → s.olc.header = some h →
      ((∀ l : Lane, laneVerdict s h l v[l] = 0) → (∀ l : Lane, v[l].image = v[(0 : Lane)].image) →
        Gives (.olcCheckEnd v) s (fun t => t.olc.st = .staged ∧
          t.olc.staged = some (mergeImage s.olc (keptImage s) h v[(0 : Lane)].image) ∧ t.olc.active = s.olc.active)) ∧
      ((∃ l m : Lane, laneVerdict s h l v[l] ≠ laneVerdict s h m v[m]) → s.olc.rollback = none →
        Gives (.olcCheckEnd v) s (fun t => t.olc.st = .idle ∧ t.olc.staged = none ∧ t.olc.result = 12 ∧
          t.olc.active = s.olc.active))) ∧
    (∀ ok : Vector Bool 3, s.olc.st = .verifying →
      ((∀ l : Lane, ok[l] = true) →
        s.olc.rolling = true ∨ (∀ h, s.olc.header = some h → ∀ l : Lane, olcCrcs s.olc h l = true) → Gives (.olcVerifyEnd ok) s (fun t =>
        t.olc.st = .waiting ∧ t.olc.waitCnt = 0 ∧ t.olc.result = 0 ∧ t.olc.rollback = s.olc.rollback)) ∧
      ((∃ l : Lane, ok[l] = false) → Gives (.olcVerifyEnd ok) s (fun t =>
        t.olc.st = .idle ∧ t.olc.staged = none ∧ t.olc.rollback = none ∧ t.olc.result = 14 ∧
        t.olc.active = s.olc.active))) ∧
    (s.olc.st = .waiting → s.olc.waitAct.toNat ≤ s.olc.waitCnt → Gives .olcWaitExpiry s (fun t =>
      t.olc.st = .idle ∧ t.olc.staged = none ∧ t.olc.rollback = none ∧ t.olc.result = 13 ∧
      t.olc.active = s.olc.active)) ∧
    (s.olc.accepting = true → Gives .olcAcceptDone s (fun t =>
      t.nv.store = s.olc.active ∧ t.olc.accepting = false ∧ t.olc.active = s.olc.active ∧
      (s.olc.st = .held → t.olc.st = .idle ∧ t.olc.rollback = none)))

/-! ### Registers -/

/-- R6: what ID_CAPS reads in each variant. A register of a block under test reads as at isolation (R490). What a write to a register
does (R60, R98): a field out of its range keeps what it has, and that the good fields of such a write apply is a reading of the model
(log entry 31); an absent unit raises ABSENT_UNIT once in a cycle and changes nothing else (R3); a block under test
ignores writes (R490); a misaligned access or one outside the BAR leaves no trace (R376). -/
def Obligations.RegisterAccesses : Prop :=
  (∀ s : State, s.bst.block ≠ 0 → readReg s 0x0008 = match s.variant with
    | .trv16 => 0x0107FFB0#32
    | .trv16b => 0x02077FB0#32
    | .trv10 => 0x03079A6A#32) ∧
  (∀ (s : State) (ofs : Nat), absentUnit s ofs = none → s.bst.block.toNat = ofs / 0x800 →
    readReg s ofs = s.bst.held.getD (ofs % 0x800 / 4) 0) ∧
  ∀ (s : State) (v : Word),
    let wr := fun ofs => Instr.registerWrite false ofs v
    let present := fun ofs => absentUnit s ofs = none ∧ s.bst.block.toNat ≠ ofs / 0x800
    let within := fun (lo w least most n : Nat) (old : BitVec n) =>
      if least ≤ fld v lo w ∧ fld v lo w ≤ most then BitVec.ofNat n (fld v lo w) else old
    (∀ x ∈ [(0x1000, { s with tri := { s.tri with lagWinSh := within 0 8 1 128 8 s.tri.lagWinSh,
                                                  lagWarnSh := within 8 8 0 128 8 s.tri.lagWarnSh } }),
            (0x1240, { s with tri := { s.tri with finalPagesSh := within 0 11 16 1024 11 s.tri.finalPagesSh,
                                                  pairLimitSh := BitVec.ofNat 16 (fld v 16 16) } }),
            (0x12B0, { s with tri := { s.tri with retestSh := within 0 8 0 168 8 s.tri.retestSh } }),
            (0x13C0, { s with tri := { s.tri with scrubSh := within 0 8 1 168 8 s.tri.scrubSh } }),
            (0x1804, { s with scn := { s.scn with tcycSh := within 0 14 10 10000 14 s.scn.tcycSh,
                                                  safeExitSh := bit v 28 } }),
            (0x1808, { s with nv := { s.nv with autorun := bit v 0 } }),
            (0x2008, { s with pim := { s.pim with tmoSh := BitVec.ofNat 16 (fld v 0 16) } }),
            (0x3808, { s with dio := { s.dio with intervalSh := within 0 16 1 65535 16 s.dio.intervalSh } }),
            (0x6864, { s with rck := { s.rck with limitSh := within 0 16 1 3000 16 s.rck.limitSh } }),
            (0x8004, { s with nv := { s.nv with maxAge := within 0 12 24 2160 12 s.nv.maxAge, forceFull := bit v 16 } }),
            (0x0000, s)],
      present x.1 → Gives (wr x.1) s (· = x.2)) ∧
    (present 0x280C →
      (s.scn.mode = .stop → Gives (wr 0x280C) s (· = { s with nv := { s.nv with
        stageSize := BitVec.ofNat 12 (fld v 0 12) } })) ∧
      (s.scn.mode ≠ .stop → Gives (wr 0x280C) s (fun t => Aside s t ∧ RaisedNv 0x0F01 0xFF 0x280C 0 s t))) ∧
    (∀ (ofs u : Nat) (w : Option Word), ofs % 4 = 0 → ofs < 0x10000 → absentUnit s ofs = some u →
      ∀ i ∈ [wr ofs, .absentUnitAccess ofs w],
        (u ∈ s.absent → Gives i s (· = s)) ∧
        (u ∉ s.absent → Gives i s (fun t => Aside { s with absent := s.absent ++ [u] } t ∧
          RaisedNv 0x0001 0xFF (w32 ofs) 0 s t))) ∧
    (∀ ofs : Nat, absentUnit s ofs = none → s.bst.block.toNat = ofs / 0x800 →
      ∀ i ∈ [wr ofs, .statusClear ofs v], Gives i s (· = s)) ∧
    (∀ ofs : Nat, ofs % 4 ≠ 0 ∨ 0x10000 ≤ ofs → Gives (wr ofs) s (· = s)) ∧
    (∀ (ofs size : Nat) (w : Bool), Gives (.unsupportedBar0Access ofs size w) s (· = s))

/-- R8, R57, R162, R245, R260, R266: the bits that software clears: VALID of the captures, DYN_FAULT and the output
latches outside RUN with their gang, the maxima. In RUN a vital latch stays, with CFG_WHILE_RUNNING. That one member's bit clears the
latches of its whole gang is a reading of the model (log entry 34). -/
def Obligations.ClearedBits : Prop :=
  ∀ (s : State) (v : Word),
    let present := fun ofs => absentUnit s ofs = none ∧ s.bst.block.toNat ≠ ofs / 0x800
    (∀ x ∈ [(0x1450, { s with tri := { s.tri with nvTrapValid := false } }),
            (0x1824, { s with scn := { s.scn with ovrValid := false } }),
            (0x2004, { s with pim := { s.pim with capValid := false } }),
            (0x30A0, { s with svy := { s.svy with capValid := false } }),
            (0x7200, { s with crcCap := { s.crcCap with valid := false } }),
            (0x7814, { s with err := { s.err with ffValid := false } })],
      present x.1 → Gives (.statusClear x.1 v) s (· = if bit v 31 then x.2 else s)) ∧
    (∀ n : TriadId, present 0x1100 → bit v 31 = true → Gives (.statusClear (0x1100 + 0x40 * n.val) v) s (fun t =>
      t = { s with triads := t.triads } ∧
      t.triads[n] = { s.triads[n] with cap := { s.triads[n].cap with valid := false } } ∧
      ∀ m : TriadId, m ≠ n → t.triads[m] = s.triads[m])) ∧
    (∀ p : PartId, present (0x18A0 + 4 * p.val) → p.val < s.variant.triads → Gives (.solveMaxReset p) s (fun t =>
      t = { s with parts := t.parts } ∧ t.parts[p] = { s.parts[p] with solveMax := 0 } ∧
      ∀ q : PartId, q ≠ p → t.parts[q] = s.parts[q])) ∧
    (present 0x309C → Gives .roundMaxReset s (· = { s with svy := { s.svy with roundMax := 0 } })) ∧
    (present 0x10D4 →
      (s.scn.mode ≠ .run → (∃ ch : Chan, bit v ch.val = true) → Gives (.dynFaultClear v) s (fun t =>
        ∀ m : Chan, bit t.tri.dynFault m.val =
          (bit s.tri.dynFault m.val && !chans.any (fun ch => bit v ch.val && decide (m ∈ gangOf s ch))))) ∧
      (s.scn.mode = .run → (∃ ch : Chan, bit v ch.val = true) → Gives (.dynFaultClear v) s (fun t =>
        Aside s t ∧ RaisedNv 0x0F01 0xFF 0x10D4 0 s t))) ∧
    (present 0x3AD4 → (∃ n : Fin 24, bit v n.val = true) →
      (s.scn.mode ≠ .run → Gives (.outputLatchClear 0x3AD4 v) s (fun t => ∀ m : Chan,
        t.dio.outs[m].ovld = s.dio.outs[m].ovld ∧ t.dio.outs[m].tfail =
          (s.dio.outs[m].tfail && !(fins 24).any (fun n => bit v n.val && decide (m ∈ gangOf s (outChan n)))))) ∧
      (s.scn.mode = .run → Gives (.outputLatchClear 0x3AD4 v) s (fun t =>
        (∀ m : Chan, t.dio.outs[m].tfail = s.dio.outs[m].tfail ∧ t.dio.outs[m].ovld = s.dio.outs[m].ovld) ∧
        RaisedNv 0x0F01 0xFF 0x3AD4 0 s t)))

/-! ### Start and shut-down -/

/-- R431, R473, R477, R478, R480 to R483, R487, R500: power-on leaves START with everything volatile at its reset value and
the non-volatile stores kept; the reference moves to XO once it is stable, or START goes on from IO after 100 ms; a start is
quick or full by the record in use, full where the Logbook has been reset since; a test or check that meets invalid conditions
is tried again 1 s later; a passed test clears FORCE_FULL, a failed one leads to SHUTDOWN. That DRAM reads 0 after power-on is
a choice of the model (log entry 3), and so are XO_STABLE before any monitor window (38), the arguments 0x10 and REASON (39) and the
secret check, passed once a later part of the test runs (55). -/
def Obligations.StartKind : Prop :=
  ∀ (s : State),
    (∀ i ∈ [Instr.powerOn, .hardwareReset, .vlInterruption], Gives i s (fun t =>
      t.scn.mode = .start ∧ t.scn.cycle = 0 ∧ t.bst.ph = .clock ∧ t.tb = 0 ∧ (∀ l o, bankByte t l o = 0) ∧
      t.clk.lockT = true ∧ t.variant = s.variant ∧ t.pending = s.pending ∧ t.nv = { s.nv with logs := t.nv.logs })) ∧
    (s.clk.monSeen = true → s.clk.xoInRange = false → Gives .xoStable s (fun t => t = s)) ∧
    (s.clk.monSeen = false ∨ s.clk.xoInRange = true →
      (s.scn.mode ≠ .start → Gives .xoStable s (fun t =>
        t = { s with clk := { s.clk with xoStable := true, xoInRange := true } })) ∧
      (s.bst.ph = .clock → s.scn.mode = .start → s.err.nq.length < 60 →
        let full := fun (reason : Nat) (t : State) => t.clk.srcIo = false ∧ t.bst.start = 2 ∧
          t.bst.reason = BitVec.ofNat 4 reason ∧ (t.bst.ph = .full ∨ t.bst.ph = .retry) ∧
          RaisedNv 0x1002 0xFF 0x10 (w32 reason) s t
        (recUsed s = none → Gives .xoStable s (fun t => full 1 t ∧ RaisedNv 0x1006 0xFF 0x10 0 s t)) ∧
        (∀ r, recUsed s = some r → r.result ≠ 1 → Gives .xoStable s (full 2)) ∧
        (∀ r, recUsed s = some r → r.result = 1 → (pohNow s).toNat < r.poh.toNat → Gives .xoStable s (full 3)) ∧
        (∀ r, recUsed s = some r → r.result = 1 → r.poh.toNat ≤ (pohNow s).toNat →
          (pohNow s).toNat - r.poh.toNat ≤ s.bst.maxAge.toNat → r.fw = Config.firmware →
          r.serial = Config.serial.setWidth 32 → s.bst.forceFull = false → Gives .xoStable s (fun t =>
            t.clk.srcIo = false ∧ t.bst.start = 1 ∧ t.bst.reason = 0 ∧ (t.bst.ph = .quick ∨ t.bst.ph = .retry) ∧
            RaisedNv 0x1001 0xFF 0x10 0 s t)))) ∧
    (s.bst.ph = .clock → Gives .xoStartTimeout s (fun t => t.clk.xoFailed = true ∧ t.bst.ph ≠ .clock ∧
      t.tb = tbAt s 10000000 ∧ RaisedNv 0x0101 0xFF 0 (s.clk.monCount.setWidth 32) { s with tb := tbAt s 10000000 } t)) ∧
    (s.bst.ph = .retry → testCond s = true → Gives .testConditionRetry s (fun t => t.tb = tbAt s s.bst.retryAt ∧
      t.bst.ph = (if s.bst.retryQuick then .quick else .full) ∧ t.bst.wait = false ∧
      (t.bst.testFrom = if s.bst.retryQuick then s.bst.testFrom else some t.tb) ∧ t = { s with tb := t.tb, bst := t.bst })) ∧
    (∀ r : Vector KResult 16, s.bst.ph = .quick → (∀ c : CoreId, r[c] = .pass) → Gives (.quickCheckEnd r) s (fun t =>
      t = { s with bst := { s.bst with ph := .load }, cores := t.cores, log := t.log } ∧
      ∀ c : CoreId, bit (recBase s).failCores c.val = false → t.cores[c] = s.cores[c])) ∧
    (∀ r : SelfTest, s.bst.ph = .full →
      (r.conditions = false → Gives (.startSelfTestEnd r) s (fun t => t.bst.ph = .retry ∧ t.bst.wait = true ∧
        t.bst.retryAt = s.tb + 100000000 ∧ t.cores = s.cores ∧ t.bst.block = 0xFF)) ∧
      (r.conditions = true → (r.inTime s).failed s.variant = 0 → s.scn.cycle = 0 → Gives (.startSelfTestEnd r) s (fun t =>
        t.bst.ph = .load ∧ t.nv.forceFull = false ∧ (∀ l o, bankByte t l o = 0) ∧ t.hst.scanOpen = true ∧
        RaisedNv 0x1003 0xFF 0x10 0 s t)) ∧
      (r.conditions = true → (r.inTime s).failed s.variant ≠ 0 → Gives (.startSelfTestEnd r) s (fun t =>
        t.scn.mode = .shutdown ∧ t.scn.cause = 0x1004 ∧ t.bst.noTest = true)))

/-- R473, R481, R484, R486 to R490, R398: the stages of START follow each other; keys that fail their check are erased, and
loading them closes the scan latch; START ends, with the first cycle if no request for SHUTDOWN waits, once no core's test runs or
waits, a reading of the model (log entry 129); shut-down clears the keys and ends with its test, from which on the ring engine is
still unless the secret check failed; a failed start self-test is followed by no other, and its record stands. The arguments of the
BST events are log entry 39. -/
def Obligations.StartAndShutdown : Prop :=
  ∀ (s : State),
    (s.bst.ph = .load → Gives .imageLoadEnd s (fun t => t.bst.ph = .check ∧ t.cores = s.cores ∧
      (∀ im, s.nv.store = some im → t.olc.active = some im ∧ t.saf.dlaActive = false))) ∧
    (s.bst.ph = .check → s.olc.active = none → Gives .imageCheckEnd s (fun t => t = { s with
      scn := { s.scn with imageValid := false }, hst := { s.hst with keyStat := 1, scanOpen := false },
      bst := { s.bst with ph := .keys } })) ∧
    (s.bst.ph = .keys →
      ((∀ k : Fin 8, keyGood s.nv.sealed[k] = true) → Gives .keyLoadEnd s (fun t => t.bst.ph = .ready ∧
        t.hst.keyStat = 2 ∧ t.nv = s.nv ∧ ∀ k : Fin 8, t.hst.slots[k] = s.nv.sealed[k].map (·.1))) ∧
      ((∃ k : Fin 8, keyGood s.nv.sealed[k] = false) → Gives .keyLoadEnd s (fun t => t.bst.ph = .ready ∧
        t.hst.keyStat = 3 ∧ (∀ k : Fin 8, t.hst.slots[k] = none ∧ t.nv.sealed[k] = none) ∧
        RaisedNv 0x1201 0xFF 0x12 0 s t))) ∧
    (∀ b : BoundaryIn, s.bst.ph = .ready →
      ((∀ c : CoreId, kenWaits s c = false ∧ kenRunning s c false = false) → s.scn.mode ≠ .shutdown →
        (∀ q ∈ s.scn.reqs, q.2 ≠ .mode .shutdown) → Gives (.startEnd b) s (fun t =>
        t.scn.phase = 1 ∧ t.scn.nextB = t.scn.bTb + t.scn.tcycAct.toNat * 10000 ∧
        ∀ p : PartId, t.parts[p].budgetArmed = t.parts[p].budgetAct)) ∧
      ((∃ c : CoreId, kenWaits s c = true) → Gives (.startEnd b) s (fun t => t = s))) ∧
    (s.scn.mode = .shutdown →
      (∀ ok0 ok1, s.bst.phase = 3 → s.bst.drained = false →
        (s.bst.noTest = false → Gives (.shutdownDrainEnd ok0 ok1) s (fun t =>
          (t.bst.phase = 4 ∨ t.bst.phase = 5) ∧ t.scn.mode = .shutdown ∧ t.hst.keyStat = 0 ∧
          ∀ k : Fin 8, t.hst.slots[k] = none)) ∧
        (s.bst.noTest = true → Gives (.shutdownDrainEnd ok0 ok1) s (fun t =>
          t.bst.phase = 3 ∧ t.bst.drained = true ∧ t.nv.recs = s.nv.recs))) ∧
      (∀ r : SelfTest, s.bst.phase = 4 →
        (r.conditions = true → Gives (.shutdownTestEnd r) s (fun t => t.bst.phase = 5 ∧ t.scn.mode = .shutdown ∧
          t.hst.stopped = (s.hst.stopped || (r.inTime s).secretsOk))) ∧
        (r.conditions = false → Gives (.shutdownTestEnd r) s (fun t => t.bst.phase = 5 ∧ t.bst.block = 0xFF ∧
          t.scn.mode = .shutdown ∧ t.hst.stopped = s.hst.stopped ∧ RaisedNv 0x1005 0xFF 0x10 0 (testCut s) t))))

/-! ### Local inputs and outputs -/

/-- R54, R250, R258, R259, R269, R436: chip boundaries and the codes at them, none while PLL-T stands still, a filter sample
of the MONITORED mode, terminal changes, overload and stuck-on. That a brake channel's terminal has the thresholds of an output
terminal is a reading of the model (log entry 102). -/
def Obligations.LocalChannels : Prop :=
  ∀ (s : State), s.variant ≠ .trv16b →
    (s.clk.stopped = true → Gives .chipBoundary s (· = s)) ∧
    (s.clk.stopped = false → s.dio.chipAt < s.tb → Gives .chipBoundary s (fun t =>
      t = { s with tb := t.tb, dio := { s.dio with chipAt := t.dio.chipAt, outs := t.dio.outs } } ∧
      t.dio.chipAt % 8333 = 0 ∧ s.tb ≤ t.dio.chipAt ∧ t.dio.chipAt < s.tb + 8333 ∧ t.tb = t.dio.chipAt ∧
      ∀ ch : Chan,
        (s.dio.outs[ch].code = true → t.dio.outs[ch] = { s.dio.outs[ch] with
          chips := vmap chipNext s.dio.outs[ch].chips }) ∧
        (s.dio.outs[ch].code = false → codeOk s ch = false → t.dio.outs[ch] = s.dio.outs[ch]) ∧
        (s.dio.outs[ch].code = false → codeOk s ch = true → t.dio.outs[ch].code = true ∧
          ∀ l : Lane, t.dio.outs[ch].chips[l].toNat = (chanLead s ch).val + 1))) ∧
    (∀ rd : Vector (Vector Reading 3) 48, bit s.clk.gateClosed 7 = false → Gives (.inputFilterSample rd) s (fun t =>
      t = { s with dio := { s.dio with ins := t.dio.ins } } ∧
      ∀ (n : Fin 48) (l : Lane) (k : InCls), fld s.dio.ins[n].cfgAct 30 2 = 2 → bit s.dio.ins[n].cfgAct 29 = false →
        bit s.dio.ins[n].cfgAct 28 = false →
        (k = .closed → 5000 < rd[n][l].ua) → (k = .open_ → 500 ≤ rd[n][l].ua ∧ rd[n][l].ua ≤ 5000) →
        (k = .brk → rd[n][l].ua < 500) → s.dio.ins[n].chains[l].runCls = some k →
        10 * fld s.dio.ins[n].cfgAct 0 16 ≤ s.dio.ins[n].chains[l].runLen + 1 →
        s.dio.ins[n].chains[l].runLen < 655350 → t.dio.ins[n].chains[l].cls = some k)) ∧
    (∀ (ch : Chan) (high low : Vector Int 3) (coilMa : Nat),
      (∀ l : Lane, (15000 ≤ high[l] ∨ high[l] ≤ 5000) ∧ (15000 ≤ low[l] ∨ low[l] ≤ 5000)) →
      let hi := fun l : Lane => decide (15000 ≤ high[l])
      let on := (hi 0 && hi 1) || (hi 0 && hi 2) || (hi 1 && hi 2)
      Gives (.outputTerminalChange ch high low coilMa) s (fun t =>
      t = { s with dio := { s.dio with outs := t.dio.outs }, log := t.log } ∧ t.dio.outs[ch].termHigh = on ∧
      (ch.val < 24 → t.dio.outs[ch].switched =
        if on = true ∧ s.dio.outs[ch].termHigh = false ∧ s.dio.outs[ch].restoring = false ∧ chanLead s ch = ch
        then satInc s.dio.outs[ch].switched else s.dio.outs[ch].switched) ∧
      ∀ m : Chan, m ≠ ch → t.dio.outs[m] = s.dio.outs[m])) ∧
    (∀ ch : Chan, s.dio.outs[ch].ovld = false → s.saf.exer = none → Gives (.outOverload ch) s (fun t =>
      (∀ m ∈ gangOf s ch, t.dio.outs[m].ovld = true ∧ t.dio.outs[m].latch = false ∧ t.dio.outs[m].code = false) ∧
      RaisedNv 0x0706 0xFF (chanArg ch) 0 s t)) ∧
    (∀ (ch : Chan) (chains : Vector Bool 3) (current : Bool), s.dio.outs[ch].vital = true →
      s.dio.outs[ch].code = false → s.dio.outs[ch].stuck = false →
      (if ch.val < 24 ∧ s.rck.twinEnAct = false then
        (chains[(0 : Lane)] && chains[(1 : Lane)] || chains[(0 : Lane)] && chains[(2 : Lane)] ||
          chains[(1 : Lane)] && chains[(2 : Lane)]) else current) = true → s.scn.mode = .run → s.bst.block = 0xFF →
      s.err.vq.length < 32 →
      let at_ := tbAt s (s.dio.outs[ch].stopAt + 500000)
      Gives (.outStuckOn ch chains current) s (fun t => t.scn.mode = .safe ∧ t.scn.cause = 0x0705 ∧ t.tb = at_ ∧
        RaisedV 0x0705 0xFF (chanArg ch) 0 { s with tb := at_ } t))

/-- R262, R264, R265, R268: open load of a brake channel, the silence of a non-vital one, the visits of the scheduler, and the
verdict of an off-pulse. R530: about a hand-over the scheduler visits nothing. That a visit skipped while a brake test runs moves the
scheduler on is a reading of the model (log entry 57). -/
def Obligations.OffPulses : Prop :=
  ∀ (s : State), s.variant ≠ .trv16b →
    (∀ k : Fin 4,
      (s.dio.outs[sbcChan k].coilFrom = none → Gives (.sbcOpenLoad k) s (fun t => t = s)) ∧
      (∀ from_, s.dio.outs[sbcChan k].coilFrom = some from_ → Gives (.sbcOpenLoad k) s (fun t =>
        t.tb = tbAt s (from_ + 10000000) ∧ t.dio.outs[sbcChan k].coilFrom = none ∧ t.cores = s.cores ∧
        RaisedNv 0x0707 0xFF (w32 (256 + k.val)) 0 { s with tb := tbAt s (from_ + 10000000) } t))) ∧
    (∀ n : Fin 24,
      let o := s.dio.outs[chanLead s (outChan n)]
      o.vital = false → o.silFired = false → s.scn.mode.bounded = true → standing s = false →
      Gives (.silenceTimeout n) s (fun t =>
        t = { s with tb := tbAt s (o.silFrom + o.silMsAct.toNat * 100000), dio := { s.dio with outs := t.dio.outs } } ∧
        ∀ m ∈ gangOf s (chanLead s (outChan n)), t.dio.outs[m].silFired = true ∧ (o.silModeAct = 0 → t.dio.outs[m].latch = false) ∧
          (o.silModeAct = 1 → t.dio.outs[m].latch = (!s.dio.outs[m].ovld && !twinHeld s m)) ∧
          (o.silModeAct = 2 → t.dio.outs[m].latch = s.dio.outs[m].latch))) ∧
    (s.scn.mode = .run → handing s = true → Gives .offPulseVisit s (fun t =>
      t = { s with tb := t.tb, dio := { s.dio with visits := s.dio.visits + 1 } })) ∧
    (s.scn.mode = .run → handing s = false → s.dio.nextPos < 28 → ∀ ch : Chan, ch.val = s.dio.nextPos →
      (pulseDue s ch = false → Gives .offPulseVisit s (fun t => t = { s with
        tb := t.tb, dio := { s.dio with visits := s.dio.visits + 1, pos := ch.val, nextPos := (ch.val + 1) % 28 } })) ∧
      (pulseDue s ch = true → Gives .offPulseVisit s (fun t => t.dio.test = some (ch, t.tb) ∧ t.tb % 8333 = 0 ∧
        ∀ m ∈ gangOf s ch, t.dio.outs[m].pulse = true ∧ t.dio.outs[m].code = false))) ∧
    (∀ (ch : Chan) (t0 : Nat) (chains : Vector Bool 3) (coil : Bool), s.dio.test = some (ch, t0) → ch.val < 24 →
      ((∀ l : Lane, chains[l] = false) → Gives (.offPulseVerdict chains coil) s (fun t => t.dio.test = none ∧
        t.dio.last = 1 ∧ t.tb = tbAt s (t0 + 16666) ∧
        ∀ m : Chan, t.dio.outs[m].tfail = s.dio.outs[m].tfail ∧ (m ∈ gangOf s ch → t.dio.outs[m].pulse = false))) ∧
      ((∃ l : Lane, chains[l] = true) → s.saf.exer = none → (∀ k : Fin 4, s.dio.outs[sbcChan k].brkTest = false) → Gives (.offPulseVerdict chains coil) s (fun t =>
        t.dio.test = none ∧ t.dio.last = 2 ∧ ∀ m ∈ gangOf s ch, t.dio.outs[m].tfail = true)))

/-! ### Safety functions -/

/-- R287, R288, R290 to R293, R295: the end of an exercise, a feedback that disagrees too long, and the brake tests:
their end by the acknowledge signal, when one is due, when it is overdue; none of them on a module without channels
(R303). -/
def Obligations.SafetyFunctions : Prop :=
  ∀ (s : State),
    (∀ (ch : Chan) (len : Nat), s.saf.exerOn = true → s.saf.exer = some (ch, len) → s.dio.outs[ch].exer = true →
      let at_ := tbAt s s.saf.exerEnd
      Gives .exerciseExpiry s (fun t => t.saf.exer = none ∧ t.saf.exerOn = false ∧ t.tb = at_ ∧
        (∀ m ∈ gangOf s ch, t.dio.outs[m].exer = false ∧ t.dio.outs[m].credit = none ∧ t.dio.outs[m].code = false) ∧
        RaisedNv 0x080A 0xFF (chanArg ch) 0 { s with tb := at_ } t)) ∧
    (∀ (n : Fin 24) (d : SafetyDesc) (m : FbMon) (from_ : Nat), s.saf.desc = some d → d.fb[n] = some m →
      s.saf.fbFrom[n] = some from_ → s.scn.agreed = true → s.dio.outs[outChan n].fbLatch = false → s.saf.exer = none →
      (s.scn.bTb < from_ + m.tfb * 100000 → Gives (.feedbackTimeout n) s (fun t => t = s)) ∧
      (from_ + m.tfb * 100000 ≤ s.scn.bTb → Gives (.feedbackTimeout n) s (fun t =>
        (∀ c ∈ gangOf s (outChan n), t.dio.outs[c].fbLatch = true) ∧
        ∀ q, chanTriad s (outChan n) = some q → RaisedV 0x0805 (whoOf q) (w32 n.val) 0 s t))) ∧
    (∀ (k : Fin 4) (c : BrkCfg), brkCfg s k = some c →
      let g : Sig := ⟨false, c.ack⟩
      let q := pimQuality s 0 none g
      (s.scn.agreed = true → s.saf.brk[k].phase = 1 → s.saf.brk[k].startB + c.tTest * 10000000 ≤ s.scn.bTb →
        (areaVal s 0 none g ≠ 0 → qFlags q &&& (qSubst + qFault + qBreak + qStopped + qProof) = 0 →
          fld s.svy.cfgAct 24 8 = 0 → Gives (.brakeTestTimeEnd k) s (fun t => t.saf.brk[k].phase = 2 ∧
            t.saf.brk[k].last = 1 ∧ t.saf.brk[k].due = false ∧ t.saf.brk[k].passAt = s.tb ∧
            t.dio.outs[sbcChan k].brkTest = false ∧ RaisedNv 0x0806 0xFF (w32 (256 + k.val)) 0 s t)) ∧
        (areaVal s 0 none g = 0 → Gives (.brakeTestTimeEnd k) s (fun t => t.saf.brk[k].phase = 2 ∧
          t.saf.brk[k].last = 3 ∧ t.saf.brk[k].due = true ∧ t.dio.outs[sbcChan k].brkTest = false))) ∧
      (s.variant = .trv16b → Gives (.brakeTestDue k) s (fun t => t = s) ∧ Gives (.brakeTestOverdue k) s (fun t => t = s)) ∧
      (s.variant ≠ .trv16b → s.saf.brk[k].due = false → Gives (.brakeTestDue k) s (fun t =>
        t = { s with tb := tbAt s (s.saf.brk[k].passAt + c.interval * 360000000000),
                     saf := { s.saf with brk := t.saf.brk } } ∧
        t.saf.brk[k] = { s.saf.brk[k] with due := true } ∧ ∀ j : Fin 4, j ≠ k → t.saf.brk[j] = s.saf.brk[j])) ∧
      (s.variant ≠ .trv16b → s.saf.brk[k].overdue = false → s.saf.brk[k].graceAt = none → Gives (.brakeTestOverdue k) s (fun t =>
        t.saf.brk[k].overdue = true ∧
        t.tb = tbAt s (s.saf.brk[k].passAt + (c.interval + c.grace) * 360000000000) ∧
        ∀ m ∈ gangOf s (sbcChan k), t.dio.outs[m].tfail = true)) ∧
      (∀ from_, s.dio.outs[sbcChan k].waitOn = some from_ → Gives (.brakeTestEnergiseTimeout k) s (fun t =>
        t.saf.brk[k].phase = 2 ∧ t.saf.brk[k].last = 3 ∧ t.saf.brk[k].due = true ∧
        t.dio.outs[sbcChan k].brkTest = false ∧ t.tb = tbAt s (from_ + 500000))))

/-! ### Ubuno -/

/-- R304 to R307, R311, R314, R315, R322, R330, R333, R344: bus cycles, the frames received, kept or
discarded, a waypoint, a station lost. A microtick is UTDIV ticks (R430). -/
def Obligations.UbunoFrames : Prop :=
  ∀ (s : State) (b : Fin 2), ubRuns s b = true →
    let x := s.ub[b]
    let l := x.layAct
    let ut := fld s.clk.divAct 8 3
    let ends := x.cycFrom + ut * (25 * l.cycUs)
    (x.cycNo < s.scn.cycle → Gives (.busCycleStart b) s (fun t => t.tb = tbAt s s.scn.bTb ∧
      t.ub[b].cycFrom = s.scn.bTb ∧ t.ub[b].cycAtB = true ∧ t.ub[b].cycNo = s.scn.cycle ∧
      (x.st = .keeper → x.silentRaised = false → t.ub[b].st = .keeper ∧ t.ub[b].count = x.count + 1 ∧
        t.ub[b].busCyc = if x.count = 0 then 0 else x.busCyc + 1))) ∧
    (s.scn.cycle ≤ x.cycNo → ends < s.scn.nextB → Gives (.busCycleStart b) s (fun t =>
      t.tb = tbAt s ends ∧ t.ub[b].cycFrom = ends ∧ t.ub[b].cycAtB = false)) ∧
    (s.scn.cycle ≤ x.cycNo → s.scn.nextB ≤ ends → Gives (.busCycleStart b) s (fun t => t = s)) ∧
    (∀ f : UbFrame, ubGated s b = false → ubDelivers x f.chanB = true →
      (f.decoded = false ∨ f.crcOk = false ∨ l.payloadMax < f.payload.length ∨ f.id ≠ f.place →
        Gives (.ubunoFrameReceived b f) s (fun t => t.ub[b].rx = x.rx ∧ t.ub[b].st = x.st ∧ t.pim = s.pim ∧
          t.banks = s.banks)) ∧
      (f.typ ≠ 2 → f.typ ≠ 3 → l.accUt < f.dev.natAbs → Gives (.ubunoFrameReceived b f) s (fun t =>
        t.ub[b].rx = x.rx ∧ t.ub[b].sbValid = true ∧
        (x.sbValid = false → t.ub[b].sbDev = BitVec.ofInt 32 f.dev ∧ t.ub[b].sbCh = f.chanB) ∧
        (x.sbRaised = false → RaisedNv (0x0904 + 0x100 * b.val) 0xFF
          (w32 (if (stnOf s b f.sender).isSome then f.sender else 0)) (w32 f.id) s t))) ∧
      (ubJudge s b f = .good → f.typ = 1 → x.st ≠ .foreign → (∀ r ∈ x.rx, r.id ≠ f.id) →
        Gives (.ubunoFrameReceived b f) s (fun t => t = { s with ub := t.ub } ∧ t.ub[b].rx = x.rx ++
          [{ id := f.id, typ := 1, payload := f.payload, chanB := f.chanB, cycle := x.cycFrom, isFresh := true }]))) ∧
    (∀ f : UbFrame, ubHears x f.chanB = false → Gives (.ubunoFrameReceived b f) s (fun t => t = s)) ∧
    (∀ k : Fin 8,
      let ofs := fld x.wpAct[k] 0 19
      ubGated s b = false → bit x.wpAct[k] 31 = true → (bit x.wpAct[k] 30 = true ∨ x.cycAtB = true) →
      ofs < 25 * l.cycUs → bit x.wpFired k.val = false → x.cycNo = s.scn.cycle → Gives (.waypoint b k) s (fun t =>
        t = { s with tb := tbAt s (x.cycFrom + ut * ofs), ub := t.ub, hst := t.hst } ∧
        t.ub[b].wpCap[k] = w32 t.tb ∧ bit t.ub[b].wpSt k.val = true)) ∧
    (∀ (id : Nat) (r : StnRt) (d : Station), stnRt s b id = some r → stnOf s b id = some d → r.admitted = true →
      r.got = false → d.lostN ≤ r.run + 1 → x.closed = false →
      let at_ := tbAt s (x.cycFrom + ut * ((d.first + d.count - 1) * l.slotUt))
      Gives (.stationLost b id) s (fun t => t.tb = at_ ∧
        (∃ r', stnRt t b id = some r' ∧ r'.admitted = false ∧ r'.lost = true) ∧
        RaisedNv (0x0907 + 0x100 * b.val) 0xFF (w32 id) (w32 d.first) { s with tb := at_ } t))

/-- R51, R52, R307, R311, R322, R326, R328, R329: what the module sends at the launch point of a slot and in a minislot on
the enabled channels, with the triad and the voter lanes that enable it, from when, where the frame begins and where it ends,
and the end of the enable. -/
def Obligations.UbunoSends : Prop :=
  ∀ (s : State) (b : Fin 2), ubRuns s b = true →
    let x := s.ub[b]
    let l := x.layAct
    let ut := fld s.clk.divAct 8 3
    let sends := fun (y : Ub) (at_ from_ typ id : Nat) (payload : List Byte) (part : Option PartId) (till : Nat) (t : State) =>
      t = { s with tb := at_, ub := t.ub } ∧ t.ub[b] = { y with sent := t.ub[b].sent } ∧
      ∃ n : TriadId, formed s n = true ∧ t.ub[b].sent = some {
        typ := typ, id := id, sender := 0x400 + l.modId, cycle := x.busCyc.toNat % 256, payload := payload,
        chanA := l.chA, chanB := l.chB, part := part, by_ := n, lanes := ubLanes s b id part, begins := from_,
        ends := from_ + ut * ((payload.length + 35) / 5), till := till }
    (∀ slot : Nat, slot ≠ 0 → slot ≤ l.slots → s.scn.cycle ≤ x.cycNo →
      let at_ := tbAt s (x.cycFrom + ut * ((slot - 1) * l.slotUt) + ut * l.lpUt)
      let till := x.cycFrom + ut * (slot * l.slotUt)
      (ubMaySend s b = false → Gives (.ubunoSlotLaunch b slot) s (fun t => t = { s with tb := at_, ub := t.ub } ∧
        t.ub[b] = { x with sent := none })) ∧
      (ubMaySend s b = true → x.st = .keeper →
        (slot = l.coldSlot → Gives (.ubunoSlotLaunch b slot) s (sends x at_ at_ 2 slot (syncPayload s b 0) none till)) ∧
        (∀ p, slot ≠ l.coldSlot → ownerOf s (.ubSlot b slot) = some p → ubPartLive s p = true →
          (∀ c, x.curValid[p] = some c → s.scn.cycle ≤ c → s.scn.mode = .run → Gives (.ubunoSlotLaunch b slot) s
            (sends x at_ at_ 1 slot (getBytes x.cur (0x100 * slot) (ubSlotLen s b slot)) (some p) till)) ∧
          (s.scn.mode ≠ .run ∨ x.curValid[p] = none → Gives (.ubunoSlotLaunch b slot) s
            (sends x at_ at_ 0 slot [] (some p) till)))) ∧
      (ubMaySend s b = true → x.st = .coldstart → x.claim ≠ 0 → slot = l.coldSlot →
        x.claimFrom ≤ x.cycFrom + ut * ((slot - 1) * l.slotUt) → Gives (.ubunoSlotLaunch b slot) s
          (sends { x with claimSent := true } at_ at_ 3 slot (syncPayload s b x.claim) none till))) ∧
    (∀ (mini : Nat) (r : DynReq), mini + x.lag < l.minis → x.minis ≤ mini → s.scn.cycle ≤ x.cycNo → x.held = none →
      x.dyn.find? (fun r => r.mini = mini && r.ready) = some r → ubMaySend s b = true → x.st = .keeper →
      ubPartLive s r.part = true → r.len ≤ l.payloadMax → mini + x.lag + l.span r.len ≤ l.minis →
      let starts := fun n : Nat => x.cycFrom + ut * (l.slots * l.slotUt + n * l.miniUt)
      let at_ := tbAt s (starts (mini + x.lag))
      (l.span r.len ≤ x.dynLeft[r.part] → Gives (.dynamicFrameSend b mini) s (sends
        { x with dyn := x.dyn.filter (fun y => y.mini ≠ mini), minis := mini + l.span r.len,
                 dynLeft := vset x.dynLeft r.part (x.dynLeft[r.part] - l.span r.len) }
        at_ (starts (mini + x.lag) + ut * l.lpUt) 4 (2048 + mini) (getBytes x.cur (0x100000 + 0x100 * mini) r.len)
        (some r.part) (starts (mini + x.lag + l.span r.len)))) ∧
      (x.dynLeft[r.part] < l.span r.len → Gives (.dynamicFrameSend b mini) s (fun t => t.tb = at_ ∧
        t.ub[b].sent = none ∧ t.ub[b].dyn.length = x.dyn.length ∧
        ((∀ y ∈ x.dyn, y.part = r.part → y.limited = false) →
          RaisedNv (0x090C + 0x100 * b.val) 0xFF 0 (w32 (2048 + mini)) { s with tb := at_ } t))))

/-- R321 to R323: who keeps a bus: after listening, in the claim cycles by what was received in them or seen besides, and after the
wait that a collision asks for. That a node with COLD_EN 0 listens on, and that frames and operands judge a claim cycle as one, are
readings of the model (log entries 72, 107). R336, R532: jammed channels, which are declared in the JAM_CYC-th jammed cycle and
restored after 16 cycles without a jam, at the end of the bus cycle (a reading of the model, log entry 108), and SFP modules. -/
def Obligations.UbunoKeeping : Prop :=
  (∀ (s : State) (b : Fin 2), ubRuns s b = true → ubGated s b = false →
    let x := s.ub[b]
    let l := x.layAct
    let ut := fld s.clk.divAct 8 3
    let bus := fun (y : Ub) (t : State) => t = { s with tb := t.tb, ub := t.ub } ∧ t.ub[b] = y ∧
      ∀ c : Fin 2, c ≠ b → t.ub[c] = s.ub[c]
    let claims := fun at_ : Nat =>
      { x with st := .coldstart, claim := 1, claimFrom := at_, claimSent := false, heard := false, lowSeen := false,
               errSeen := false }
    let ended := tbAt s (x.cycFrom + ut * (25 * l.cycUs))
    (x.st = .listening →
      let at_ := tbAt s (x.listenFrom + ut * (l.listenCyc * (25 * l.cycUs) + l.coldSlot * l.slotUt))
      (x.heard = true → Gives (.coldstartListenEnd b) s (fun t => t.tb = at_ ∧ t.ub[b].st = .foreign)) ∧
      (x.heard = false → l.coldEn = true → Gives (.coldstartListenEnd b) s (fun t => t.tb = at_ ∧
        bus (claims at_) t)) ∧
      (x.heard = false → l.coldEn = false → Gives (.coldstartListenEnd b) s (fun t => t.tb = at_ ∧
        t.ub[b].st = .listening ∧ t.ub[b].listenFrom = at_))) ∧
    (x.st = .coldstart → ∀ low err : Bool,
      (x.claimSent = false → Gives (.coldstartClaimCycleEnd b low err) s (fun t => t = s)) ∧
      (x.claimSent = true →
        (x.lowSeen = true ∨ low = true → Gives (.coldstartClaimCycleEnd b low err) s (fun t =>
          t.tb = ended ∧ t.ub[b].st = .foreign)) ∧
        (x.lowSeen = false → low = false → x.errSeen = true ∨ err = true →
          Gives (.coldstartClaimCycleEnd b low err) s (fun t => t.tb = ended ∧
            t.ub[b].st = .coldstart ∧ t.ub[b].claim = 0 ∧ t.ub[b].backoffFrom = ended ∧
            RaisedNv (0x0902 + 0x100 * b.val) 0xFF 0 (w32 l.coldSlot) { s with tb := ended } t)) ∧
        (x.lowSeen = false → x.errSeen = false →
          (x.claim ≠ 3 → Gives (.coldstartClaimCycleEnd b false false) s (fun t =>
            t.tb = ended ∧ bus { x with claim := x.claim + 1, claimSent := false } t)) ∧
          (x.claim = 3 → Gives (.coldstartClaimCycleEnd b false false) s (fun t =>
            t.tb = ended ∧ t.ub[b].st = .keeper ∧ t.ub[b].count = 0 ∧
            RaisedNv (0x0901 + 0x100 * b.val) 0xFF 0 0 { s with tb := ended } t))))) ∧
    (x.st = .coldstart → x.claim = 0 →
      let at_ := tbAt s (x.backoffFrom + ut * (l.coldSlot * (25 * l.cycUs)))
      (x.heard = true → Gives (.coldstartBackoffEnd b) s (fun t => t.tb = at_ ∧ t.ub[b].st = .foreign)) ∧
      (x.heard = false → Gives (.coldstartBackoffEnd b) s (fun t => t.tb = at_ ∧ bus (claims at_) t)))) ∧
  ∀ (s : State) (b : Fin 2) (chB : Bool),
    let x := s.ub[b]
    let l := x.layAct
    let j := x.jam[chIx chB]
    let ended := tbAt s (x.cycFrom + fld s.clk.divAct 8 3 * (25 * l.cycUs))
    (ubRuns s b = true → ubGated s b = false → x.closed = false →
      (∀ busy : Bool, busy = true ∨ ubJammed x chB = true →
        (ubIsJam x chB = false → l.jamCyc ≤ j.run + 1 → Gives (.channelJam b ⟨chB, busy⟩) s (fun t => t.tb = ended ∧
          Aside { s with tb := ended, ub := t.ub } t ∧ ubIsJam t.ub[b] chB = true ∧ ubDelivers t.ub[b] chB = false ∧
          RaisedNv (0x0908 + 0x100 * b.val) 0xFF 0 0 { s with tb := ended } t)) ∧
        (j.run + 1 < l.jamCyc → Gives (.channelJam b ⟨chB, busy⟩) s (fun t => t = { s with ub := t.ub } ∧
          ubJammed t.ub[b] chB = true ∧ ubIsJam t.ub[b] chB = ubIsJam x chB))) ∧
      (ubIsOut x chB = true → ubJammed x chB = false →
        (15 ≤ j.clean → Gives (.channelOk b chB) s (fun t => t.tb = ended ∧
          Aside { s with tb := ended, ub := t.ub } t ∧ ubIsOut t.ub[b] chB = false ∧
          RaisedNv (0x0909 + 0x100 * b.val) 0xFF 0 0 { s with tb := ended } t)) ∧
        (j.clean < 15 → Gives (.channelOk b chB) s (fun t => t = s)))) ∧
    (hasUb s b = true → ∀ u : Bool,
      let bus := fun (y : Ub) (t : State) => t = { s with ub := t.ub } ∧ t.ub[b] = y ∧
        ∀ c : Fin 2, c ≠ b → t.ub[c] = s.ub[c]
      let restarts := fun i : Fin 2 => vset x.jam i { x.jam[i] with clean := 0 }
      Gives (.sfpChange b true u) s (bus { x with jam := restarts 1, sfpB := u, downB := x.downB || (x.sfpB && !u) }) ∧
      Gives (.sfpChange b false u) s (bus { x with jam := restarts 0, sfpA := u, downA := x.downA || (x.sfpA && !u) }))

/-! ### CAN -/

/-- R356, R358, R359, R367, R369: a frame received, or lost to a full buffer; error counts, error passive and bus-off, with
which every request leaves the channel. A channel that only listens moves no error count. The steps of the counts and the thresholds
are those of ISO 11898-1, which the model presumes (log entry 17). -/
def Obligations.CanChannels : Prop :=
  ∀ (s : State) (c : Fin 4), canLive s c = true →
    let x := s.can[c]
    (∀ (f : CanFrame) (sof : Nat), canQuiet x = false →
      (x.buf.length < 4096 → x.rxErr ≤ 127 → Gives (.canFrameReceived c f sof) s (fun t =>
        t = { s with can := t.can, log := t.log } ∧ t.can[c].rxErr = x.rxErr - 1 ∧ t.can[c].rxSeq = x.rxSeq + 1 ∧
        t.can[c].buf = x.buf ++ [(⟨{ f with
          id := if bit f.id 29 then f.id else f.id &&& 0xE00007FF,
          data := if bit f.id 30 then [] else f.data.take (dlcBytes (bit f.id 31) f.dlc.toNat) },
          false, x.lostFlag, sof, x.rxSeq⟩ : CanRx)])) ∧
      (4096 ≤ x.buf.length → Gives (.canFrameReceived c f sof) s (fun t => t.can[c].buf = x.buf ∧
        t.can[c].lostSince = x.lostSince + 1 ∧ t.can[c].lostFlag = true ∧
        (x.ovfRaised = false → RaisedNv 0x0B03 0xFF (w32 c.val) 0 s t)))) ∧
    (∀ (f : CanFrame) (sof : Nat), canQuiet x = true → Gives (.canFrameReceived c f sof) s (fun t =>
      t.can[c].rxErr = x.rxErr ∧ t.can[c].txErr = x.txErr ∧ t.can[c].st = x.st)) ∧
    (∀ (tx : Bool) (dTec dRec : Nat), canQuiet x = false →
      (255 < x.txErr + dTec → Gives (.canErrorDetected c tx false dTec dRec) s (fun t => t.can[c].st = .busOff ∧
        t.can[c].reqs = [] ∧ t.can[c].waiting = [] ∧ t.can[c].busOffs = satInc x.busOffs ∧
        t.can[c].recovering = bit x.cfgAct 3 ∧ RaisedNv 0x0B01 0xFF (w32 c.val) 0 s t)) ∧
      (x.txErr + dTec ≤ 255 → x.st = .active → (127 < x.txErr + dTec ∨ 127 < x.rxErr + dRec) →
        Gives (.canErrorDetected c tx false dTec dRec) s (fun t => t.can[c].st = .passive ∧
          t.can[c].txErr = x.txErr + dTec ∧ t.can[c].rxErr = x.rxErr + dRec ∧ t.can[c].reqs = x.reqs ∧
          RaisedNv 0x0B02 0xFF (w32 c.val) 0 s t)) ∧
      (x.txErr + dTec ≤ 127 → x.rxErr + dRec ≤ 127 → Gives (.canErrorDetected c tx false dTec dRec) s (fun t =>
        t.can[c].st = x.st ∧ t.can[c].txErr = x.txErr + dTec ∧ t.can[c].rxErr = x.rxErr + dRec ∧ t.err = s.err))) ∧
    (∀ (tx suspect : Bool) (dTec dRec : Nat), canQuiet x = true →
      Gives (.canErrorDetected c tx suspect dTec dRec) s (fun t => t.can[c].st = x.st ∧ t.can[c].txErr = x.txErr ∧
        t.can[c].rxErr = x.rxErr ∧ t.can[c].errTx = (if tx then satInc x.errTx else x.errTx) ∧
        t.can[c].errRx = (if tx then x.errRx else satInc x.errRx) ∧ t.err = s.err))

/-- R51, R52, R363 to R368: the winning request starts, with the triad and the voter lanes that enable it, and how an attempt
ends, or is cut off with its enable; expiry. A request that ends leaves the channel, and its status word says how. How long the enable
lasts, that a cut-off ends as an attempt with ERR 0, and TEC minus one after a frame sent, are presumed from ISO 11898-1 (log
entries 90, 17). -/
def Obligations.CanRequests : Prop :=
  ∀ (s : State) (c : Fin 4), SMap.wf 0 s.can[c].stat = true → s.can[c].waiting = [] →
    let x := s.can[c]
    let only := fun t : State => t = { s with can := t.can, freeDraws := t.freeDraws } ∧
      ∀ d : Fin 4, d ≠ c → t.can[d] = s.can[d]
    let ended := fun (r : CanReq) (state err : Nat) (suspect : Bool) (t : State) =>
      t.can[c].reqs = x.reqs.filter (fun y => y.entry ≠ r.entry) ∧
      SMap.get 0 t.can[c].stat r.entry = canStat r.cyc state err suspect false
    (∀ r, canMaySend s c = true → (∀ y ∈ x.reqs, y.onWire = false) → canOffer s c = some r → r.old = false →
      let carries := fun n : TriadId => formed s n = true ∧ ∀ p, r.owner = .vital p → triadOf s p = some n
      (r.cancel = true → Gives (.canTxStart c) s (fun t => only t ∧ ended r 3 0 (canSuspect s c r.entry) t)) ∧
      (r.cancel = false → (∀ n : TriadId, ¬ carries n) → Gives (.canTxStart c) s (fun t =>
        only t ∧ ended r 7 0 (canSuspect s c r.entry) t)) ∧
      (r.cancel = false → (∃ n : TriadId, carries n) → Gives (.canTxStart c) s (fun t => only t ∧
        (∃ n : TriadId, carries n ∧ t.can[c].reqs = x.reqs.map (fun y => if y.entry = r.entry then
          { y with onWire := true, enBy := some n,
                   frame := { y.frame with esi := bit r.frame.id 31 && decide (x.st = .passive) } } else y)) ∧
        t.can[c].enLanes = canLanes s c r ∧ t.can[c].stat = x.stat ∧
        (fld s.clk.divAct 11 5 ≤ 20 → t.can[c].wireSof = s.tb ∧ t.can[c].enTill = s.tb + canEnableTicks s x r.frame 0)))) ∧
    (∀ (r : CanReq) (suspect : Bool), x.reqs.find? (·.onWire) = some r → r.cancel = false → r.old = false →
      let sus := suspect || canSuspect s c r.entry
      let again := fun t : State => only t ∧
        t.can[c].reqs = x.reqs.map (fun y => if y.entry = r.entry then { y with onWire := false, enBy := none } else y) ∧
        SMap.get 0 t.can[c].stat r.entry = canStat r.cyc 1 0 sus false
      (s.tb ≤ x.enTill →
        Gives (.canTxEnd c .done suspect) s (fun t => ended r 2 0 (canSuspect s c r.entry) t ∧
          t.can[c].txErr = x.txErr - 1 ∧ t.can[c].txCnt = satInc x.txCnt) ∧
        (∀ e : CanEnd, e ≠ .done →
          (r.oneShot = true → Gives (.canTxEnd c e suspect) s (fun t => only t ∧ ended r 4 (match e with
            | .error n => n.val
            | _ => 7) sus t)) ∧
          (r.oneShot = false → Gives (.canTxEnd c e suspect) s again))) ∧
      (x.enTill < s.tb → ∀ e : CanEnd,
        (r.oneShot = true → Gives (.canTxEnd c e suspect) s (fun t => only t ∧ ended r 4 0 sus t)) ∧
        (r.oneShot = false → Gives (.canTxEnd c e suspect) s again))) ∧
    (∀ r, x.reqs.find? (fun y => y.entry = r.entry && !y.onWire && !y.kept) = some r → r.old = false →
      r.cyc + 1 ≤ s.scn.cycle →
      Gives (.canRequestExpiry c r.entry) s (fun t => ended r 6 0 (canSuspect s c r.entry) t ∧
        t = { s with tb := t.tb, can := t.can }))

/-- R353, R356, R364, R373: integration, which leaves no request to a channel that only listens, recovery from bus-off, and
the commands that ask for recovery and clear the greatest fill. The counts at 0 after recovery and the passive threshold are
presumed from ISO 11898-1 (log entry 17). -/
def Obligations.CanRecovery : Prop :=
  ∀ (s : State) (c : Fin 4),
    let x := s.can[c]
    let only := fun t : State => t = { s with can := t.can, freeDraws := t.freeDraws } ∧
      ∀ d : Fin 4, d ≠ c → t.can[d] = s.can[d]
    (x.st = .integrating → canMayRun s c = true →
      (bit x.cfgAct 1 = true → Gives (.canIntegration c) s (fun t => only t ∧ t.can[c].st = .listen ∧
        t.can[c].reqs = [] ∧ t.can[c].waiting = [])) ∧
      (bit x.cfgAct 1 = false → x.txErr ≤ 127 → x.rxErr ≤ 127 → Gives (.canIntegration c) s (fun t => only t ∧
        t.can[c] = { x with st := .active })) ∧
      (bit x.cfgAct 1 = false → 127 < x.txErr ∨ 127 < x.rxErr → Gives (.canIntegration c) s (fun t =>
        t.can[c] = { x with st := .passive } ∧ RaisedNv 0x0B02 0xFF (w32 c.val) 0 s t))) ∧
    (x.st = .busOff → x.recovering = true → Gives (.canBusOffRecovery c) s (fun t => only t ∧ t.can[c] = { x with
      txErr := 0, rxErr := 0, recovering := false, st := if bit x.cfgAct 1 then .listen else .active })) ∧
    (let ofs := 0x5840 + 0x200 * c.val;
      (∀ u, absentUnit s ofs = some u → ∀ i ∈ [Instr.canRecover c, .canClrMax c],
        (u ∈ s.absent → Gives i s (fun t => t = s)) ∧
        (u ∉ s.absent → Gives i s (fun t => Aside { s with absent := s.absent ++ [u] } t ∧
          RaisedNv 0x0001 0xFF (w32 ofs) 0 s t))) ∧
      (absentUnit s ofs = none → s.bst.block.toNat ≠ ofs / 0x800 →
        (x.st = .busOff → Gives (.canRecover c) s (fun t => only t ∧ t.can[c] = { x with recovering := true })) ∧
        (x.st ≠ .busOff → Gives (.canRecover c) s (fun t => t = s)) ∧
        Gives (.canClrMax c) s (fun t => only t ∧ t.can[c] = { x with maxFill := 0 })) ∧
      (absentUnit s ofs = none → s.bst.block.toNat = ofs / 0x800 →
        Gives (.canRecover c) s (fun t => t = s) ∧ Gives (.canClrMax c) s (fun t => t = s)))

/-! ### The rack bus and the standby twin -/

/-- R401 to R404, R408, R410, R411, R441: what the mirror answers a slot that is granted the transfer, who
waits for it, that no cycle is granted while the gate is pending, and how partners come, identify, deliver, stale and
leave. Who waits and who is granted between the module's own reads and its partners' is a reading of the model (log entry 111). -/
def Obligations.RackBus : Prop :=
  ∀ (s : State),
    let deaf := s.scn.mode = .start ∨ s.scn.mode = .shutdown ∨ bit s.clk.gateClosed 6 = true
    let rck := fun (r : Rck) (t : State) => t = { s with rck := r }
    (∀ (slot : Fin 16) (ofs : Nat) (reqs : BitVec 16) (own : Bool),
      let nack := fun r : Rck => { r with answer := none, given := satInc r.given }
      let served := { s.rck with reqs := 0, gnt := some slot, lastSlot := slot.val, ownLast := false };
      (deaf → Gives (.rackRead slot ⟨ofs, reqs, own⟩) s (rck (nack s.rck))) ∧
      (¬ deaf → s.rck.role = .standby → ofs % 4 ≠ 0 ∨ 0x10000 ≤ ofs →
        Gives (.rackRead slot ⟨ofs, reqs, own⟩) s (rck (nack s.rck))) ∧
      (¬ deaf → rackDrives s = true → bit s.clk.gatePend 6 = true → Gives (.rackRead slot ⟨ofs, reqs, own⟩) s
        (rck { s.rck with reqs := bitSet reqs slot.val true, gnt := none })) ∧
      (¬ deaf → rackDrives s = true → bit s.clk.gatePend 6 = false →
        (own = false ∨ s.rck.ownLast = true →
          (ofs % 4 ≠ 0 ∨ 0x10000 ≤ ofs → Gives (.rackRead slot ⟨ofs, 0, own⟩) s (rck (nack served))) ∧
          (ofs % 4 = 0 → 0x20 ≤ ofs → ofs < 0xC000 → rackTooFast s = false → Gives (.rackRead slot ⟨ofs, 0, own⟩) s
            (rck { served with answer := some (w32 (ofLe (getBytes s.rck.mirCur ofs 4))) }))) ∧
        (own = true → s.rck.ownLast = false → Gives (.rackRead slot ⟨ofs, reqs, own⟩) s
          (rck { s.rck with reqs := bitSet reqs slot.val true, gnt := none })))) ∧
    (∀ (i : Fin 16) (ofs : Nat) (ws : List Word), ¬ deaf → rackDrives s = true → bit s.clk.gatePend 6 = false →
      (s.rck.reqs ≠ 0 → s.rck.ownLast = true → Gives (.rackPartnerRead i ofs (.data ws)) s (fun t =>
        ∃ j : Fin 16, bit s.rck.reqs j.val = true ∧ rck { s.rck with gnt := some j } t)) ∧
      (s.rck.reqs = 0 ∨ s.rck.ownLast = false → i ≠ 0 → twinSlot s i = false → ofs < 0xC000 →
        let p := s.rck.parts[i]
        (p.st = .present → p.matched = false → ofs = 0 → ws.length = 8 →
          ws.getD 7 0 = crc32 ((ws.flatMap (fun w => leBytes 4 w.toNat)).take 28) →
          (∀ d, rackSlot s i = some d → d.typ = ws.getD 0 0 → d.minVer.toNat ≤ (ws.getD 1 0).toNat →
            Gives (.rackPartnerRead i ofs (.data ws)) s (fun t => t = { s with rck := { s.rck with
              parts := t.rck.parts, gnt := none, ownLast := true } } ∧
              t.rck.parts[i] = { p with typ := (ws.getD 0 0).setWidth 16, matched := true,
                                        inOfs := (ws.getD 2 0).toNat, inLen := (ws.getD 3 0).toNat })) ∧
          (rackSlot s i = none → Gives (.rackPartnerRead i ofs (.data ws)) s (fun t => t.rck.parts[i].st = .refused ∧
            RaisedNv 0x0D03 0xFF (w32 i.val) 0 s t))) ∧
        (p.st = .admitted →
          (ofs = p.inOfs → 4 * ws.length = p.inLen → Gives (.rackPartnerRead i ofs (.data ws)) s (fun t =>
            t.rck.parts[i].data = some ws ∧ t.rck.parts[i].nacked = false ∧ t.rck.parts[i].st = .admitted)) ∧
          (p.inOfs ≤ ofs → ofs < p.inOfs + p.inLen → Gives (.rackPartnerRead i ofs .nack) s (fun t =>
            t.rck.parts[i] = { p with nacked := true } ∧ t.rck.rcvd = satInc s.rck.rcvd))))) ∧
    (∀ i : Fin 16,
      let p := s.rck.parts[i]
      (i ≠ 0 → p.st = .absent → Gives (.partnerPresent i) s (fun t => t.rck.parts[i].st = .present ∧
        t.rck.parts[i].matched = false ∧ bit t.rck.pres i.val = true ∧ RaisedNv 0x0D01 0xFF (w32 i.val) 0 s t)) ∧
      (i ≠ 0 → p.st ≠ .absent → Gives (.partnerAbsent i) s (fun t =>
        t = { s with rck := { s.rck with pres := t.rck.pres, parts := t.rck.parts, peerMet := t.rck.peerMet } } ∧
        (twinSlot s i = false → t.rck.peerMet = s.rck.peerMet) ∧
        t.rck.parts[i].st = .absent ∧ t.rck.parts[i].left = true ∧ bit t.rck.pres i.val = false)) ∧
      (∀ d, rackSlot s i = some d → p.st = .admitted → d.staleN ≤ p.lifeCnt ∨ 2 ≤ p.nackCnt →
        Gives (.partnerStale i) s (fun t => t.rck.parts[i] = { p with st := .stale, held := true } ∧
          RaisedNv 0x0D05 0xFF (w32 i.val) 0 s t)))

/-- R413, R415, R422, R424: what the twin's pulses and timeouts do. That a TW_BND pulse shows that the other module lives is a
reading of the model (log entry 69); the trim that steers to it is a free value (log entry 22). -/
def Obligations.TwinPulses : Prop :=
  ∀ (s : State),
    let rck := fun (r : Rck) (t : State) => t = { s with rck := r }
    (∀ ofs : Int,
      (s.rck.role = .active → Gives (.twBndPulse ofs) s (fun t => t = s)) ∧
      (s.rck.role = .standby → ofs.natAbs ≤ 30 → Gives (.twBndPulse ofs) s (fun t =>
        t = { s with clk := { s.clk with trim := t.clk.trim }, freeDraws := t.freeDraws, rck := { s.rck with
          peer := true, ofsNs := BitVec.ofInt 32 ofs, bndMissed := 0, lock := true } } ∧
        t.clk.trim.toInt.natAbs ≤ 5000)) ∧
      (s.rck.role = .standby → 30 < ofs.natAbs → s.rck.lock = true → Gives (.twBndPulse ofs) s (fun t =>
        t.rck.lock = false ∧ RaisedNv 0x0D0B 0xFF 15 0 s t))) ∧
    (s.rck.twinEnAct = true → s.rck.role = .active →
      (positionB s = false → Gives .twinDualActive s (rck { s.rck with peer := true })) ∧
      (positionB s = true → s.scn.mode = .run → s.bst.block = 0xFF → s.err.vq.length < 32 →
        Gives .twinDualActive s (fun t => t.scn.mode = .safe ∧ t.rck.dual = true ∧ RaisedV 0x0D0A 0xFF 15 0 s t))) ∧
    (s.rck.peer = true → Gives .twAliveLoss s (rck { s.rck with peer := false, takeover := s.rck.takeover ||
      (decide (s.rck.role = .standby) && s.rck.equal && s.rck.autoAct) })) ∧
    (s.rck.holdOver = some s.scn.cycle → s.rck.holdEmit = none → Gives .twEmitPulse s
      (rck { s.rck with holdEmit := some s.tb })) ∧
    (∀ c from_, s.rck.holdOver = some c → s.rck.holdEmit = some from_ → Gives .holdOverEnd s (fun t =>
      t.tb = tbAt s (from_ + 100000) ∧ t.rck = { s.rck with holdOver := none, holdEmit := none } ∧
      ∀ ch : Chan, t.dio.outs[ch].credit = none ∧ t.dio.outs[ch].code = false ∧ t.dio.outs[ch].latch = false)) ∧
    (s.rck.twinEnAct = true → s.rck.role = .single → s.scn.mode.bounded = true → s.rck.peer = false →
      Gives .twinRoleTimeout s (fun t => t.rck = { s.rck with role := .active, solveFrom := s.scn.cycle + 1 } ∧
        t.tb = tbAt s (s.rck.roleFrom + 200000000)))

/-! ### Reset and the invariant -/

/-- The module right after reset: registers to which the tables under R60, R98, R147, R162, R192, R245, R271, R373, R399,
R447, R472 and R497 give a reset value read as that value. That no command waits, and that the memories list nothing and
so stand in canonical form, is the model's choice (log entries 3 and 10). -/
def Obligations.ResetState : Prop :=
  (∀ x ∈ [(0x0800, 0x00000009), (0x080C, 0x40004000), (0x0810, 0x14001400), (0x0818, 0x00008402), (0x0820, 0x00000000),
          (0x0834, 0xFFFF0000), (0x1000, 0x02040204), (0x1240, 0x00000080), (0x1244, 0x00000080), (0x12B0, 0x00001818),
          (0x13C0, 0x00001818), (0x1800, 0x00000001), (0x1804, 0x003200C8), (0x1824, 0x00000000), (0x2000, 0x00000000),
          (0x2804, 0x400103E8), (0x2808, 0x400103E8), (0x3000, 0x00000014), (0x3020, 0x0CCC0CCC), (0x3808, 0x02580258),
          (0x3810, 0x80A20BB8), (0x5800, 0x00090009), (0x5804, 0x013E0F0F), (0x5808, 0x001C0909), (0x6864, 0x04000400),
          (0x7804, 0x00000000)],
    readReg State.reset x.1 = BitVec.ofNat 32 x.2) ∧
  State.reset.pending = [] ∧ Memory.wf State.reset = true ∧ Maps.wf State.reset = true

/-- No command takes the memories out of their canonical form: from every state that has it, each step leads to one that
has it. -/
def Obligations.StepsKeepMemoryForm : Prop :=
  ∀ s t : State, Memory.wf s = true → step s = .next t → Memory.wf t = true

/-- No command takes the process image of any lane, the status words of the CAN channels, the host's status slots or the Logbook out
of their canonical form. -/
def Obligations.StepsKeepMapForm : Prop :=
  ∀ s t : State, Maps.wf s = true → step s = .next t → Maps.wf t = true
end

