-- ==== Sys2Proof/Laws/Vec.lean ====
section
/-!
SUPPORT. Places in vectors: what a replaced, changed or generated vector holds at each index. The primed forms are in
the normal form of `simp`, which reads a place by the number of the index.
-/
namespace Sys2Proof.Machine

open Sys2Proof

variable {α β : Type} {n : Nat}

theorem vset_get_self (v : Vector α n) (i : Fin n) (x : α) : (vset v i x)[i] = x := by
  simp [vset]

theorem vset_get_ne (v : Vector α n) {i j : Fin n} (h : j ≠ i) (x : α) : (vset v i x)[j] = v[j] := by
  simp only [vset, Fin.getElem_fin]
  exact Vector.getElem_set_ne i.isLt j.isLt (fun e => h (Fin.ext e.symm))

theorem vset_get (v : Vector α n) (i j : Fin n) (x : α) : (vset v i x)[j] = if j = i then x else v[j] := by
  by_cases h : j = i
  · subst h; rw [vset_get_self, if_pos rfl]
  · rw [vset_get_ne v h, if_neg h]

theorem vupd_get_self (v : Vector α n) (i : Fin n) (f : α → α) : (vupd v i f)[i] = f v[i] := by
  rw [vupd, vset_get_self]

theorem vupd_get_ne (v : Vector α n) {i j : Fin n} (h : j ≠ i) (f : α → α) : (vupd v i f)[j] = v[j] := by
  rw [vupd, vset_get_ne v h]

theorem vupd_get (v : Vector α n) (i j : Fin n) (f : α → α) :
    (vupd v i f)[j] = if j = i then f v[i] else v[j] := by
  rw [vupd, vset_get]

theorem vgen_get (f : Fin n → α) (i : Fin n) : (vgen n f)[i] = f i := by
  simp [vgen, fins]

theorem vmap_get (f : α → β) (v : Vector α n) (i : Fin n) : (vmap f v)[i] = f v[i] := by
  rw [vmap, vgen_get]

@[simp] theorem vset_get_self' (v : Vector α n) (i : Fin n) (x : α) : (vset v i x)[i.val] = x := vset_get_self v i x

@[simp] theorem vupd_get_self' (v : Vector α n) (i : Fin n) (f : α → α) : (vupd v i f)[i.val] = f v[i.val] :=
  vupd_get_self v i f

@[simp] theorem vgen_get' (f : Fin n → α) (i : Fin n) : (vgen n f)[i.val] = f i := vgen_get f i

@[simp] theorem vmap_get' (f : α → β) (v : Vector α n) (i : Fin n) : (vmap f v)[i.val] = f v[i.val] := vmap_get f v i

@[simp] theorem vset_self (v : Vector α n) (i : Fin n) : vset v i v[i] = v := by
  simp [vset]

theorem mem_fins (i : Fin n) : i ∈ fins n := by simp [fins]

end Sys2Proof.Machine
end

