-- ==== Sys2Proof/Laws/Memory.lean ====
section
/-!
SUPPORT. The sparse maps: reading after writing, and that every write keeps the canonical form.
-/
namespace Sys2Proof

variable {α : Type} [DecidableEq α]

/-! ### The canonical form is kept -/

theorem SMap.okFrom_mono {d : α} {lo lo' : Nat} {m : SMap α} (h : SMap.okFrom d lo m = true) (hl : lo' ≤ lo) :
    SMap.okFrom d lo' m = true := by
  cases m with
  | nil => rfl
  | cons e m =>
    simp only [SMap.okFrom, Bool.and_eq_true, decide_eq_true_eq] at *
    exact ⟨⟨by omega, h.1.2⟩, h.2⟩

theorem SMap.okFrom_erase {d : α} {a : Nat} : ∀ {m : SMap α} {lo : Nat}, SMap.okFrom d lo m = true →
    SMap.okFrom d lo (SMap.erase m a) = true
  | [], _, _ => rfl
  | (k, v) :: m, lo, h => by
    unfold SMap.erase
    split
    · simp only [SMap.okFrom, Bool.and_eq_true, decide_eq_true_eq] at h
      exact SMap.okFrom_mono h.2 (by omega)
    · split
      · exact h
      · simp only [SMap.okFrom, Bool.and_eq_true] at *
        exact ⟨h.1, SMap.okFrom_erase h.2⟩

theorem SMap.okFrom_put {d : α} {a : Nat} {x : α} (hx : x ≠ d) : ∀ {m : SMap α} {lo : Nat},
    SMap.okFrom d lo m = true → lo ≤ a → SMap.okFrom d lo (SMap.put m a x) = true
  | [], lo, _, ha => by simp [SMap.put, SMap.okFrom, ha, hx]
  | (k, v) :: m, lo, h, ha => by
    unfold SMap.put
    split
    · rename_i hk
      subst hk
      simp only [SMap.okFrom, Bool.and_eq_true, decide_eq_true_eq] at *
      exact ⟨⟨ha, hx⟩, h.2⟩
    · split
      · rename_i hk hlt
        simp only [SMap.okFrom, Bool.and_eq_true, decide_eq_true_eq] at *
        exact ⟨⟨ha, hx⟩, ⟨by omega, h.1.2⟩, h.2⟩
      · simp only [SMap.okFrom, Bool.and_eq_true] at *
        exact ⟨h.1, SMap.okFrom_put hx h.2 (by omega)⟩

theorem SMap.wf_set {d : α} {m : SMap α} (a : Nat) (x : α) (h : SMap.wf d m = true) :
    SMap.wf d (SMap.set d m a x) = true := by
  unfold SMap.set SMap.wf at *
  split
  · exact SMap.okFrom_erase h
  · exact SMap.okFrom_put (by assumption) h (by omega)

/-! ### Reading after writing -/

omit [DecidableEq α] in
theorem SMap.get_put (d : α) (a b : Nat) (x : α) : ∀ m : SMap α,
    SMap.get d (SMap.put m a x) b = if b = a then x else SMap.get d m b
  | [] => by
    by_cases h : b = a
    · simp [SMap.put, SMap.get, h]
    · simp [SMap.put, SMap.get, h, Ne.symm h]
  | (k, v) :: m => by
    have ih := SMap.get_put d a b x m
    unfold SMap.put
    split
    · rename_i hk
      subst hk
      by_cases h : b = k
      · simp [SMap.get, h]
      · simp [SMap.get, h, Ne.symm h]
    · split
      · by_cases h : b = a
        · simp [SMap.get, h]
        · simp [SMap.get, h, Ne.symm h]
      · rename_i hk _
        by_cases h : b = a
        · subst h; simp [SMap.get, hk, ih]
        · simp [SMap.get, ih, h]

omit [DecidableEq α] in
theorem SMap.get_erase_ne (d : α) {a b : Nat} (h : b ≠ a) : ∀ m : SMap α,
    SMap.get d (SMap.erase m a) b = SMap.get d m b
  | [] => rfl
  | (k, v) :: m => by
    have ih := SMap.get_erase_ne d h m
    unfold SMap.erase
    split
    · rename_i hk
      subst hk
      simp [SMap.get, Ne.symm h]
    · split
      · rfl
      · simp [SMap.get, ih]

theorem SMap.get_below {d : α} {a : Nat} : ∀ {m : SMap α} {lo : Nat}, SMap.okFrom d lo m = true → a < lo →
    SMap.get d m a = d
  | [], _, _, _ => rfl
  | (k, v) :: m, lo, h, ha => by
    simp only [SMap.okFrom, Bool.and_eq_true, decide_eq_true_eq] at h
    simp only [SMap.get]
    rw [if_neg (by omega)]
    exact SMap.get_below h.2 (by omega)

theorem SMap.get_erase_self {d : α} {a : Nat} : ∀ {m : SMap α} {lo : Nat}, SMap.okFrom d lo m = true →
    SMap.get d (SMap.erase m a) a = d
  | [], _, _ => rfl
  | (k, v) :: m, lo, h => by
    simp only [SMap.okFrom, Bool.and_eq_true, decide_eq_true_eq] at h
    unfold SMap.erase
    split
    · rename_i hk
      subst hk
      exact SMap.get_below h.2 (by omega)
    · rename_i hk
      split
      · simp only [SMap.get, if_neg hk]
        exact SMap.get_below h.2 (by omega)
      · simp only [SMap.get, if_neg hk]
        exact SMap.get_erase_self h.2

/-- A read after a write: the value at the place written, and what was there everywhere else. -/
theorem SMap.get_set {d : α} {m : SMap α} (h : SMap.wf d m = true) (a b : Nat) (x : α) :
    SMap.get d (SMap.set d m a x) b = if b = a then x else SMap.get d m b := by
  unfold SMap.set
  split
  · rename_i hx
    by_cases hb : b = a
    · subst hb
      rw [if_pos rfl, hx]
      exact SMap.get_erase_self h
    · rw [if_neg hb, SMap.get_erase_ne d hb]
  · exact SMap.get_put d a b x m

/-- Any other place keeps what it read, whatever the form of the map. -/
theorem SMap.get_set_ne {d : α} {m : SMap α} {a b : Nat} (h : b ≠ a) (x : α) :
    SMap.get d (SMap.set d m a x) b = SMap.get d m b := by
  unfold SMap.set
  split
  · exact SMap.get_erase_ne d h m
  · rw [SMap.get_put, if_neg h]

namespace Machine

/-! ### Bytes -/

theorem putBytes_wf : ∀ (bs : List Byte) (m : SMap Byte) (ofs : Nat), SMap.wf 0#8 m = true →
    SMap.wf 0#8 (putBytes m ofs bs) = true
  | [], _, _, h => h
  | b :: bs, m, ofs, h => putBytes_wf bs _ _ (SMap.wf_set ofs b h)

theorem putBytes_get : ∀ (bs : List Byte) (m : SMap Byte) (ofs : Nat), SMap.wf 0#8 m = true → ∀ a : Nat,
    SMap.get 0#8 (putBytes m ofs bs) a =
      if ofs ≤ a ∧ a < ofs + bs.length then bs.getD (a - ofs) 0#8 else SMap.get 0#8 m a
  | [], _, ofs, _, a => by
    rw [if_neg (by simp only [List.length_nil]; omega)]; rfl
  | b :: bs, m, ofs, h, a => by
    rw [putBytes, putBytes_get bs _ _ (SMap.wf_set ofs b h) a, SMap.get_set h]
    by_cases h1 : a = ofs
    · subst h1
      rw [if_neg (by omega), if_pos rfl, if_pos (by simp only [List.length_cons]; omega)]
      simp
    · by_cases h2 : ofs + 1 ≤ a ∧ a < ofs + 1 + bs.length
      · rw [if_pos h2, if_pos (by simp only [List.length_cons]; omega)]
        obtain ⟨n, hn⟩ : ∃ n, a - ofs = n + 1 := ⟨a - ofs - 1, by omega⟩
        rw [hn, show a - (ofs + 1) = n by omega]
        rfl
      · rw [if_neg h2, if_neg h1, if_neg (by simp only [List.length_cons]; omega)]

theorem putBytes_get_out (bs : List Byte) : ∀ (m : SMap Byte) (ofs a : Nat), ¬ (ofs ≤ a ∧ a < ofs + bs.length) →
    SMap.get 0#8 (putBytes m ofs bs) a = SMap.get 0#8 m a := by
  induction bs with
  | nil => intros; rfl
  | cons b bs ih =>
    intro m ofs a h
    simp only [List.length_cons] at h
    rw [putBytes, ih _ _ _ (by omega), SMap.get_set_ne (by omega)]

theorem getBytes_length (m : SMap Byte) (ofs n : Nat) : (getBytes m ofs n).length = n := by
  induction n generalizing ofs with
  | zero => rfl
  | succ n ih => simp [getBytes, ih]

end Machine
end Sys2Proof
end

