-- ==== Sys2Proof/Laws/Banks.lean ====
section
/-!
SUPPORT. The memories of the state: what a store in a bank writes and leaves, and that every operation on banks and
local SRAM keeps their canonical form.
-/
namespace Sys2Proof.Machine

open Sys2Proof

/-! ### The canonical form -/

/-- A step from one state to another that keeps the canonical form. -/
def Keeps (s t : State) : Prop := Memory.wf s = true → Memory.wf t = true

theorem Keeps.refl (s : State) : Keeps s s := fun h => h

theorem Keeps.trans {s t u : State} (h : Keeps s t) (k : Keeps t u) : Keeps s u := fun w => k (h w)

theorem Memory.wf_iff (s : State) : Memory.wf s = true ↔
    (∀ l : Lane, SMap.wf 0#8 s.banks[l] = true) ∧ ∀ c : CoreId, SMap.wf 0#8 s.cores[c].sram = true := by
  unfold Memory.wf
  rw [Bool.and_eq_true, List.all_eq_true, List.all_eq_true]
  exact ⟨fun h => ⟨fun l => h.1 l (mem_fins l), fun c => h.2 c (mem_fins c)⟩, fun h => ⟨fun l _ => h.1 l, fun c _ => h.2 c⟩⟩

/-- A change that touches neither banks nor cores. -/
theorem Keeps.aside {s t : State} (hb : t.banks = s.banks) (hc : t.cores = s.cores) : Keeps s t := by
  intro h
  rw [Memory.wf_iff] at *
  rw [hb, hc]
  exact h

theorem Keeps.forEach {α : Type} {f : α → State → State} (h : ∀ x s, Keeps s (f x s)) :
    ∀ (l : List α) (s : State), Keeps s (forEach l f s)
  | [], s => .refl s
  | x :: l, s => .trans (h x s) (Keeps.forEach h l (f x s))

/-- A change of one core that keeps the form of its SRAM. -/
theorem keeps_modCore (c : CoreId) (f : Core → Core) (s : State)
    (h : SMap.wf 0#8 s.cores[c].sram = true → SMap.wf 0#8 (f s.cores[c]).sram = true) : Keeps s (modCore c f s) := by
  intro w
  rw [Memory.wf_iff] at *
  refine ⟨w.1, fun d => ?_⟩
  unfold modCore
  rw [vupd_get]
  split
  · exact h (w.2 c)
  · exact w.2 d

/-- A change of one bank that keeps its form. -/
theorem keeps_bank {s t : State} (l : Lane) (f : SMap Byte → SMap Byte)
    (hf : ∀ m, SMap.wf 0#8 m = true → SMap.wf 0#8 (f m) = true) (hb : t.banks = vupd s.banks l f)
    (hc : t.cores = s.cores) : Keeps s t := by
  intro w
  rw [Memory.wf_iff] at *
  rw [hb, hc]
  refine ⟨fun m => ?_, w.2⟩
  rw [vupd_get]
  split
  · exact hf _ (w.1 l)
  · exact w.1 m

theorem SMap.okFrom_filter {p : Nat × Byte → Bool} : ∀ {m : SMap Byte} {lo : Nat}, SMap.okFrom 0#8 lo m = true →
    SMap.okFrom 0#8 lo (m.filter p) = true
  | [], _, _ => rfl
  | e :: m, lo, h => by
    have h' := h
    simp only [SMap.okFrom, Bool.and_eq_true, decide_eq_true_eq] at h'
    rw [List.filter_cons]
    split
    · simp only [SMap.okFrom, Bool.and_eq_true, decide_eq_true_eq]
      exact ⟨h'.1, SMap.okFrom_filter h'.2⟩
    · exact SMap.okFrom_mono (SMap.okFrom_filter h'.2) (by omega)

theorem clearRange_wf {m : SMap Byte} (lo hi : Nat) (h : SMap.wf 0#8 m = true) :
    SMap.wf 0#8 (clearRange m lo hi) = true := SMap.okFrom_filter h

theorem keeps_bankPut (l : Lane) (ofs : Nat) (bs : List Byte) (s : State) : Keeps s (bankPut l ofs bs s) :=
  keeps_bank l (fun m => putBytes m ofs bs) (fun m h => putBytes_wf bs m ofs h) rfl rfl

theorem keeps_bankPutAll (ofs : Nat) (bs : List Byte) (s : State) : Keeps s (bankPutAll ofs bs s) :=
  Keeps.forEach (fun l => keeps_bankPut l ofs bs) (fins 3) s

theorem keeps_noteDirty (p : PartId) (page : Nat) (s : State) : Keeps s (noteDirty p page s) := by
  unfold noteDirty
  split
  · split
    · exact .refl s
    · exact .aside rfl rfl
  · exact .refl s

theorem keeps_notePage (p : PartId) (page : Nat) (s : State) : Keeps s (notePage p page s) := by
  unfold notePage
  intro w
  apply keeps_noteDirty
  exact w

theorem keeps_noteOfs (ofs : Nat) (s : State) : Keeps s (noteOfs ofs s) := by
  unfold noteOfs
  split
  · split
    · apply keeps_notePage
    · exact .refl s
  · exact .refl s

theorem keeps_bankStore (l : Lane) (ofs : Nat) (bs : List Byte) (s : State) : Keeps s (bankStore l ofs bs s) :=
  .trans (keeps_bankPut l ofs bs s) (keeps_noteOfs ofs _)

theorem keeps_loadRegion (x : PartImage) (s : State) : Keeps s (loadRegion x s) := by
  intro w
  unfold loadRegion
  refine Keeps.forEach ?_ _ _ (keeps_bankPutAll _ _ _ (Keeps.forEach ?_ _ _ w))
  · exact fun d s => keeps_bankPutAll _ _ s
  · exact fun l s => keeps_bank l (fun m => clearRange m _ _) (fun m h => clearRange_wf _ _ h) rfl rfl

/-- The memories at reset are empty, which is canonical. -/
theorem reset_wf (v : Variant) (nv : Nv) (q : List Instr) : Memory.wf (State.resetOf v nv q) = true := by
  cases v <;> rfl

/-! ### Stores -/

theorem bankPut_byte (l : Lane) (ofs : Nat) (bs : List Byte) (s : State) (h : SMap.wf 0#8 s.banks[l] = true)
    (m : Lane) (o : Nat) : bankByte (bankPut l ofs bs s) m o =
      if m = l ∧ ofs ≤ o ∧ o < ofs + bs.length then bs.getD (o - ofs) 0#8 else bankByte s m o := by
  unfold bankByte bankPut
  rw [vupd_get]
  by_cases hm : m = l
  · subst hm
    simp only [if_true, true_and]
    exact putBytes_get bs s.banks[m] ofs h o
  · rw [if_neg hm, if_neg (fun k => hm k.1)]

end Sys2Proof.Machine
end

