-- ==== Sys2Proof/Laws/CoreOps.lean ====
section
/-!
SUPPORT. What the shared operations of the instructions do to a core: a register write, a retirement, a trap, and the
three operation shapes regOp, trapOp and onCore.
-/
namespace Sys2Proof.Machine

open Sys2Proof

/-! ### Only one core -/

theorem modCore_onlyCore (c : CoreId) (f : Core → Core) (s : State) : OnlyCore c s (modCore c f s) :=
  ⟨rfl, fun _ h => vupd_get_ne _ h f⟩

theorem modCore_core (c : CoreId) (f : Core → Core) (s : State) : (modCore c f s).cores[c] = f s.cores[c] :=
  vupd_get_self _ c f

/-- A change of a core depends only on what it makes of that core. -/
theorem modCore_congr {c : CoreId} {f g : Core → Core} {s : State} (h : f s.cores[c] = g s.cores[c]) :
    modCore c f s = modCore c g s := by
  unfold modCore vupd
  rw [h]

/-! ### Registers -/

theorem setReg_sets (v : Bool) (d : Reg) (w : Word) (k : Core) : SetsReg d w k (Core.setReg v d w k) := by
  intro r
  unfold Core.setReg Core.feed Core.reg
  by_cases hd : d = 0
  · subst hd; by_cases hr : r = 0 <;> simp [hr]
  · by_cases hr : r = 0
    · subst hr; simp [Ne.symm hd, hd]
    · by_cases hrd : r = d
      · subst hrd; cases v <;> simp [hd]
      · rw [if_neg hd, if_neg hr, if_neg hr, if_neg (fun (h : r = d ∧ d ≠ 0) => hrd h.1)]
        exact vset_get_ne _ hrd _

theorem setReg_keeps (v : Bool) (d : Reg) (w : Word) (k : Core) : Core.setReg v d w k =
    { k with g := (Core.setReg v d w k).g, sig := (Core.setReg v d w k).sig } := by
  unfold Core.setReg Core.feed
  split
  · rfl
  · cases v <;> rfl

theorem setReg_sig (v : Bool) (d : Reg) (w : Word) (k : Core) :
    (Core.setReg v d w k).sig = if v then (regRecs d w).foldl crc64From k.sig else k.sig := by
  unfold Core.setReg Core.feed regRecs
  by_cases hd : d = 0 <;> cases v <;> simp [hd]

/-! ### Retirement -/

theorem next_pc (v : Bool) (k : Core) : (Core.next v k).pc = k.pc + 1#22 := by
  unfold Core.next Core.retire Core.present Core.feed
  cases v
  · rfl
  · simp only [if_true]; split <;> rfl

theorem next_g (v : Bool) (k : Core) : (Core.next v k).g = k.g := by
  unfold Core.next Core.retire Core.present Core.feed
  cases v
  · rfl
  · simp only [if_true]; split <;> rfl

theorem retire_keeps (v : Bool) (k : Core) : KeepsCore k (Core.retire v k) := by
  unfold KeepsCore Core.retire Core.present Core.feed
  cases v
  · rfl
  · simp only [if_true]; split <;> rfl

theorem retire_g (v : Bool) (k : Core) : (Core.retire v k).g = k.g := by
  unfold Core.retire Core.present Core.feed
  cases v
  · rfl
  · simp only [if_true]; split <;> rfl

theorem retire_pc (v : Bool) (k : Core) : (Core.retire v k).pc = k.pc := by
  unfold Core.retire Core.present Core.feed
  cases v
  · rfl
  · simp only [if_true]; split <;> rfl

theorem reg_congr {k k' : Core} (h : k'.g = k.g) (r : Reg) : k'.reg r = k.reg r := by
  unfold Core.reg; rw [h]

/-- Retirement counts and feeds nothing of its own but a forced commit. -/
theorem retire_retires {k k' : Core} (recs : List (List Byte)) (v : Bool)
    (hc : k'.count = k.count) (hs : k'.seq = k.seq) (hr : k'.run = k.run) (ho : k'.out = k.out)
    (hg : k'.sig = if v then recs.foldl crc64From k.sig else k.sig) : Retires v recs k (Core.retire v k') := by
  unfold Retires Core.retire Core.present Core.feed
  cases v
  · simp_all
  · simp only [if_true, hc, hs] at *
    by_cases h : k.count + 1 = 4096 <;> simp [h, hr, ho, hg]

/-- A register written, and retirement to the next word. -/
theorem writes_core (c : CoreId) (x : CoreCtx) (d : Reg) (w : Word) (s : State) :
    Wrote c x d w s (modCore c (fun k => Core.next x.vital (Core.setReg x.vital d w k)) s) := by
  refine ⟨modCore_onlyCore _ _ _, ?_, ?_, ?_, ?_⟩ <;> rw [modCore_core]
  · intro r
    rw [reg_congr (next_g _ _), setReg_sets x.vital d w]
  · rw [next_pc, setReg_keeps]
  · have h1 := retire_keeps x.vital { Core.setReg x.vital d w s.cores[c] with
      pc := (Core.setReg x.vital d w s.cores[c]).pc + 1#22 }
    have h2 := setReg_keeps x.vital d w s.cores[c]
    unfold KeepsCore at *
    unfold Core.next
    rw [h1, h2]
  · have h2 := setReg_keeps x.vital d w s.cores[c]
    have h3 := setReg_sig x.vital d w s.cores[c]
    unfold Core.next
    apply retire_retires
    · show (Core.setReg x.vital d w s.cores[c]).count = _
      rw [h2]
    · show (Core.setReg x.vital d w s.cores[c]).seq = _
      rw [h2]
    · show (Core.setReg x.vital d w s.cores[c]).run = _
      rw [h2]
    · show (Core.setReg x.vital d w s.cores[c]).out = _
      rw [h2]
    · exact h3

/-! ### The shapes of the instructions -/

theorem onCore_runs {s : State} {c : CoreId} {x : CoreCtx} (h : Runs s c x) (f : CoreCtx → State → State) :
    onCore c f s = f x s := by
  unfold onCore
  rw [h.1]
  exact if_neg (by have := h.2; omega)

theorem regOp_wrote {s : State} {c : CoreId} {x : CoreCtx} (h : Runs s c x) (d : Reg) (f : Core → Word) :
    Wrote c x d (f s.cores[c]) s (regOp c d f s) := by
  unfold regOp
  rw [onCore_runs h, modCore_congr (g := fun k => Core.next x.vital (Core.setReg x.vital d (f s.cores[c]) k)) rfl]
  exact writes_core c x d (f s.cores[c]) s

theorem trapOp_wrote {s : State} {c : CoreId} {x : CoreCtx} (h : Runs s c x) (d : Reg)
    (bad : CoreCtx → State → Option (Nat × Word)) (f : CoreCtx → State → Word) (hb : bad x s = none) :
    Wrote c x d (f x s) s (trapOp c d bad f s) := by
  unfold trapOp
  rw [onCore_runs h]
  simp only [hb]
  exact writes_core c x d (f x s) s

theorem trapOp_traps {s : State} {c : CoreId} {x : CoreCtx} (h : Runs s c x) (d : Reg)
    (bad : CoreCtx → State → Option (Nat × Word)) (f : CoreCtx → State → Word) (code : Nat) (a : Word)
    (hb : bad x s = some (code, a)) : trapOp c d bad f s = takeTrap c x code a s := by
  unfold trapOp
  rw [onCore_runs h]
  simp only [hb]

theorem takeTrap_vital (c : CoreId) (x : CoreCtx) (code : Nat) (a : Word) (s : State) (h : x.vital = true) :
    TrapsVital c code a s (takeTrap c x code a s) := by
  unfold takeTrap
  cases hx : x.who with
  | nonvital n => simp [CoreCtx.vital, hx] at h
  | vital t l p => exact ⟨modCore_onlyCore _ _ _, modCore_core _ _ _⟩

/-- A core outside the program area traps before the instruction executes (R539). -/
theorem onCore_outside {s : State} {c : CoreId} {x : CoreCtx} (h : coreCtx s c = some x)
    (hp : x.prog ≤ s.cores[c].pc.toNat) (f : CoreCtx → State → State) :
    onCore c f s = takeTrap c x Ev.addrFault (fetchAddr s.cores[c].pc) s := by
  unfold onCore
  rw [h]
  exact if_pos hp

/-- A core that does not execute: nothing happens. -/
theorem onCore_idle {s : State} {c : CoreId} (h : coreCtx s c = none) (f : CoreCtx → State → State) :
    onCore c f s = s := by
  unfold onCore
  rw [h]

end Sys2Proof.Machine
end

