-- ==== Sys2Proof/Laws/State.lean ====
section
/-!
SUPPORT. What each update of the state leaves of each field: one lemma per field, so that no proof unfolds a record
update.
-/
namespace Sys2Proof.Machine

open Sys2Proof

section
variable (c : CoreId) (f : Core → Core) (s : State)
@[simp] theorem modCore_variant : (modCore c f s).variant = s.variant := rfl
@[simp] theorem modCore_tb : (modCore c f s).tb = s.tb := rfl
@[simp] theorem modCore_banks : (modCore c f s).banks = s.banks := rfl
@[simp] theorem modCore_ecc : (modCore c f s).ecc = s.ecc := rfl
@[simp] theorem modCore_cores : (modCore c f s).cores = vupd s.cores c f := rfl
@[simp] theorem modCore_triads : (modCore c f s).triads = s.triads := rfl
@[simp] theorem modCore_tri : (modCore c f s).tri = s.tri := rfl
@[simp] theorem modCore_scn : (modCore c f s).scn = s.scn := rfl
@[simp] theorem modCore_parts : (modCore c f s).parts = s.parts := rfl
@[simp] theorem modCore_nvs : (modCore c f s).nvs = s.nvs := rfl
@[simp] theorem modCore_pim : (modCore c f s).pim = s.pim := rfl
@[simp] theorem modCore_olc : (modCore c f s).olc = s.olc := rfl
@[simp] theorem modCore_svy : (modCore c f s).svy = s.svy := rfl
@[simp] theorem modCore_dio : (modCore c f s).dio = s.dio := rfl
@[simp] theorem modCore_saf : (modCore c f s).saf = s.saf := rfl
@[simp] theorem modCore_ub : (modCore c f s).ub = s.ub := rfl
@[simp] theorem modCore_can : (modCore c f s).can = s.can := rfl
@[simp] theorem modCore_hst : (modCore c f s).hst = s.hst := rfl
@[simp] theorem modCore_rck : (modCore c f s).rck = s.rck := rfl
@[simp] theorem modCore_clk : (modCore c f s).clk = s.clk := rfl
@[simp] theorem modCore_crc : (modCore c f s).crc = s.crc := rfl
@[simp] theorem modCore_crcCap : (modCore c f s).crcCap = s.crcCap := rfl
@[simp] theorem modCore_err : (modCore c f s).err = s.err := rfl
@[simp] theorem modCore_bst : (modCore c f s).bst = s.bst := rfl
@[simp] theorem modCore_log : (modCore c f s).log = s.log := rfl
@[simp] theorem modCore_nv : (modCore c f s).nv = s.nv := rfl
@[simp] theorem modCore_absent : (modCore c f s).absent = s.absent := rfl
@[simp] theorem modCore_nonceDraws : (modCore c f s).nonceDraws = s.nonceDraws := rfl
@[simp] theorem modCore_freeDraws : (modCore c f s).freeDraws = s.freeDraws := rfl
@[simp] theorem modCore_pending : (modCore c f s).pending = s.pending := rfl
end

section
variable (t : TriadId) (f : Triad → Triad) (s : State)
@[simp] theorem modTriad_variant : (modTriad t f s).variant = s.variant := rfl
@[simp] theorem modTriad_tb : (modTriad t f s).tb = s.tb := rfl
@[simp] theorem modTriad_banks : (modTriad t f s).banks = s.banks := rfl
@[simp] theorem modTriad_ecc : (modTriad t f s).ecc = s.ecc := rfl
@[simp] theorem modTriad_cores : (modTriad t f s).cores = s.cores := rfl
@[simp] theorem modTriad_triads : (modTriad t f s).triads = vupd s.triads t f := rfl
@[simp] theorem modTriad_tri : (modTriad t f s).tri = s.tri := rfl
@[simp] theorem modTriad_scn : (modTriad t f s).scn = s.scn := rfl
@[simp] theorem modTriad_parts : (modTriad t f s).parts = s.parts := rfl
@[simp] theorem modTriad_nvs : (modTriad t f s).nvs = s.nvs := rfl
@[simp] theorem modTriad_pim : (modTriad t f s).pim = s.pim := rfl
@[simp] theorem modTriad_olc : (modTriad t f s).olc = s.olc := rfl
@[simp] theorem modTriad_svy : (modTriad t f s).svy = s.svy := rfl
@[simp] theorem modTriad_dio : (modTriad t f s).dio = s.dio := rfl
@[simp] theorem modTriad_saf : (modTriad t f s).saf = s.saf := rfl
@[simp] theorem modTriad_ub : (modTriad t f s).ub = s.ub := rfl
@[simp] theorem modTriad_can : (modTriad t f s).can = s.can := rfl
@[simp] theorem modTriad_hst : (modTriad t f s).hst = s.hst := rfl
@[simp] theorem modTriad_rck : (modTriad t f s).rck = s.rck := rfl
@[simp] theorem modTriad_clk : (modTriad t f s).clk = s.clk := rfl
@[simp] theorem modTriad_crc : (modTriad t f s).crc = s.crc := rfl
@[simp] theorem modTriad_crcCap : (modTriad t f s).crcCap = s.crcCap := rfl
@[simp] theorem modTriad_err : (modTriad t f s).err = s.err := rfl
@[simp] theorem modTriad_bst : (modTriad t f s).bst = s.bst := rfl
@[simp] theorem modTriad_log : (modTriad t f s).log = s.log := rfl
@[simp] theorem modTriad_nv : (modTriad t f s).nv = s.nv := rfl
@[simp] theorem modTriad_absent : (modTriad t f s).absent = s.absent := rfl
@[simp] theorem modTriad_nonceDraws : (modTriad t f s).nonceDraws = s.nonceDraws := rfl
@[simp] theorem modTriad_freeDraws : (modTriad t f s).freeDraws = s.freeDraws := rfl
@[simp] theorem modTriad_pending : (modTriad t f s).pending = s.pending := rfl
end

section
variable (p : PartId) (f : Part → Part) (s : State)
@[simp] theorem modPart_variant : (modPart p f s).variant = s.variant := rfl
@[simp] theorem modPart_tb : (modPart p f s).tb = s.tb := rfl
@[simp] theorem modPart_banks : (modPart p f s).banks = s.banks := rfl
@[simp] theorem modPart_ecc : (modPart p f s).ecc = s.ecc := rfl
@[simp] theorem modPart_cores : (modPart p f s).cores = s.cores := rfl
@[simp] theorem modPart_triads : (modPart p f s).triads = s.triads := rfl
@[simp] theorem modPart_tri : (modPart p f s).tri = s.tri := rfl
@[simp] theorem modPart_scn : (modPart p f s).scn = s.scn := rfl
@[simp] theorem modPart_parts : (modPart p f s).parts = vupd s.parts p f := rfl
@[simp] theorem modPart_nvs : (modPart p f s).nvs = s.nvs := rfl
@[simp] theorem modPart_pim : (modPart p f s).pim = s.pim := rfl
@[simp] theorem modPart_olc : (modPart p f s).olc = s.olc := rfl
@[simp] theorem modPart_svy : (modPart p f s).svy = s.svy := rfl
@[simp] theorem modPart_dio : (modPart p f s).dio = s.dio := rfl
@[simp] theorem modPart_saf : (modPart p f s).saf = s.saf := rfl
@[simp] theorem modPart_ub : (modPart p f s).ub = s.ub := rfl
@[simp] theorem modPart_can : (modPart p f s).can = s.can := rfl
@[simp] theorem modPart_hst : (modPart p f s).hst = s.hst := rfl
@[simp] theorem modPart_rck : (modPart p f s).rck = s.rck := rfl
@[simp] theorem modPart_clk : (modPart p f s).clk = s.clk := rfl
@[simp] theorem modPart_crc : (modPart p f s).crc = s.crc := rfl
@[simp] theorem modPart_crcCap : (modPart p f s).crcCap = s.crcCap := rfl
@[simp] theorem modPart_err : (modPart p f s).err = s.err := rfl
@[simp] theorem modPart_bst : (modPart p f s).bst = s.bst := rfl
@[simp] theorem modPart_log : (modPart p f s).log = s.log := rfl
@[simp] theorem modPart_nv : (modPart p f s).nv = s.nv := rfl
@[simp] theorem modPart_absent : (modPart p f s).absent = s.absent := rfl
@[simp] theorem modPart_nonceDraws : (modPart p f s).nonceDraws = s.nonceDraws := rfl
@[simp] theorem modPart_freeDraws : (modPart p f s).freeDraws = s.freeDraws := rfl
@[simp] theorem modPart_pending : (modPart p f s).pending = s.pending := rfl
end

section
variable (k : NvId) (f : NvPart → NvPart) (s : State)
@[simp] theorem modNv_variant : (modNv k f s).variant = s.variant := rfl
@[simp] theorem modNv_tb : (modNv k f s).tb = s.tb := rfl
@[simp] theorem modNv_banks : (modNv k f s).banks = s.banks := rfl
@[simp] theorem modNv_ecc : (modNv k f s).ecc = s.ecc := rfl
@[simp] theorem modNv_cores : (modNv k f s).cores = s.cores := rfl
@[simp] theorem modNv_triads : (modNv k f s).triads = s.triads := rfl
@[simp] theorem modNv_tri : (modNv k f s).tri = s.tri := rfl
@[simp] theorem modNv_scn : (modNv k f s).scn = s.scn := rfl
@[simp] theorem modNv_parts : (modNv k f s).parts = s.parts := rfl
@[simp] theorem modNv_nvs : (modNv k f s).nvs = vupd s.nvs k f := rfl
@[simp] theorem modNv_pim : (modNv k f s).pim = s.pim := rfl
@[simp] theorem modNv_olc : (modNv k f s).olc = s.olc := rfl
@[simp] theorem modNv_svy : (modNv k f s).svy = s.svy := rfl
@[simp] theorem modNv_dio : (modNv k f s).dio = s.dio := rfl
@[simp] theorem modNv_saf : (modNv k f s).saf = s.saf := rfl
@[simp] theorem modNv_ub : (modNv k f s).ub = s.ub := rfl
@[simp] theorem modNv_can : (modNv k f s).can = s.can := rfl
@[simp] theorem modNv_hst : (modNv k f s).hst = s.hst := rfl
@[simp] theorem modNv_rck : (modNv k f s).rck = s.rck := rfl
@[simp] theorem modNv_clk : (modNv k f s).clk = s.clk := rfl
@[simp] theorem modNv_crc : (modNv k f s).crc = s.crc := rfl
@[simp] theorem modNv_crcCap : (modNv k f s).crcCap = s.crcCap := rfl
@[simp] theorem modNv_err : (modNv k f s).err = s.err := rfl
@[simp] theorem modNv_bst : (modNv k f s).bst = s.bst := rfl
@[simp] theorem modNv_log : (modNv k f s).log = s.log := rfl
@[simp] theorem modNv_nv : (modNv k f s).nv = s.nv := rfl
@[simp] theorem modNv_absent : (modNv k f s).absent = s.absent := rfl
@[simp] theorem modNv_nonceDraws : (modNv k f s).nonceDraws = s.nonceDraws := rfl
@[simp] theorem modNv_freeDraws : (modNv k f s).freeDraws = s.freeDraws := rfl
@[simp] theorem modNv_pending : (modNv k f s).pending = s.pending := rfl
end

section
variable (c : Chan) (f : OutCh → OutCh) (s : State)
@[simp] theorem modOut_variant : (modOut c f s).variant = s.variant := rfl
@[simp] theorem modOut_tb : (modOut c f s).tb = s.tb := rfl
@[simp] theorem modOut_banks : (modOut c f s).banks = s.banks := rfl
@[simp] theorem modOut_ecc : (modOut c f s).ecc = s.ecc := rfl
@[simp] theorem modOut_cores : (modOut c f s).cores = s.cores := rfl
@[simp] theorem modOut_triads : (modOut c f s).triads = s.triads := rfl
@[simp] theorem modOut_tri : (modOut c f s).tri = s.tri := rfl
@[simp] theorem modOut_scn : (modOut c f s).scn = s.scn := rfl
@[simp] theorem modOut_parts : (modOut c f s).parts = s.parts := rfl
@[simp] theorem modOut_nvs : (modOut c f s).nvs = s.nvs := rfl
@[simp] theorem modOut_pim : (modOut c f s).pim = s.pim := rfl
@[simp] theorem modOut_olc : (modOut c f s).olc = s.olc := rfl
@[simp] theorem modOut_svy : (modOut c f s).svy = s.svy := rfl
@[simp] theorem modOut_dio : (modOut c f s).dio = { s.dio with outs := vupd s.dio.outs c f } := rfl
@[simp] theorem modOut_saf : (modOut c f s).saf = s.saf := rfl
@[simp] theorem modOut_ub : (modOut c f s).ub = s.ub := rfl
@[simp] theorem modOut_can : (modOut c f s).can = s.can := rfl
@[simp] theorem modOut_hst : (modOut c f s).hst = s.hst := rfl
@[simp] theorem modOut_rck : (modOut c f s).rck = s.rck := rfl
@[simp] theorem modOut_clk : (modOut c f s).clk = s.clk := rfl
@[simp] theorem modOut_crc : (modOut c f s).crc = s.crc := rfl
@[simp] theorem modOut_crcCap : (modOut c f s).crcCap = s.crcCap := rfl
@[simp] theorem modOut_err : (modOut c f s).err = s.err := rfl
@[simp] theorem modOut_bst : (modOut c f s).bst = s.bst := rfl
@[simp] theorem modOut_log : (modOut c f s).log = s.log := rfl
@[simp] theorem modOut_nv : (modOut c f s).nv = s.nv := rfl
@[simp] theorem modOut_absent : (modOut c f s).absent = s.absent := rfl
@[simp] theorem modOut_nonceDraws : (modOut c f s).nonceDraws = s.nonceDraws := rfl
@[simp] theorem modOut_freeDraws : (modOut c f s).freeDraws = s.freeDraws := rfl
@[simp] theorem modOut_pending : (modOut c f s).pending = s.pending := rfl
end

section
variable (n : Fin 48) (f : InCh → InCh) (s : State)
@[simp] theorem modIn_variant : (modIn n f s).variant = s.variant := rfl
@[simp] theorem modIn_tb : (modIn n f s).tb = s.tb := rfl
@[simp] theorem modIn_banks : (modIn n f s).banks = s.banks := rfl
@[simp] theorem modIn_ecc : (modIn n f s).ecc = s.ecc := rfl
@[simp] theorem modIn_cores : (modIn n f s).cores = s.cores := rfl
@[simp] theorem modIn_triads : (modIn n f s).triads = s.triads := rfl
@[simp] theorem modIn_tri : (modIn n f s).tri = s.tri := rfl
@[simp] theorem modIn_scn : (modIn n f s).scn = s.scn := rfl
@[simp] theorem modIn_parts : (modIn n f s).parts = s.parts := rfl
@[simp] theorem modIn_nvs : (modIn n f s).nvs = s.nvs := rfl
@[simp] theorem modIn_pim : (modIn n f s).pim = s.pim := rfl
@[simp] theorem modIn_olc : (modIn n f s).olc = s.olc := rfl
@[simp] theorem modIn_svy : (modIn n f s).svy = s.svy := rfl
@[simp] theorem modIn_dio : (modIn n f s).dio = { s.dio with ins := vupd s.dio.ins n f } := rfl
@[simp] theorem modIn_saf : (modIn n f s).saf = s.saf := rfl
@[simp] theorem modIn_ub : (modIn n f s).ub = s.ub := rfl
@[simp] theorem modIn_can : (modIn n f s).can = s.can := rfl
@[simp] theorem modIn_hst : (modIn n f s).hst = s.hst := rfl
@[simp] theorem modIn_rck : (modIn n f s).rck = s.rck := rfl
@[simp] theorem modIn_clk : (modIn n f s).clk = s.clk := rfl
@[simp] theorem modIn_crc : (modIn n f s).crc = s.crc := rfl
@[simp] theorem modIn_crcCap : (modIn n f s).crcCap = s.crcCap := rfl
@[simp] theorem modIn_err : (modIn n f s).err = s.err := rfl
@[simp] theorem modIn_bst : (modIn n f s).bst = s.bst := rfl
@[simp] theorem modIn_log : (modIn n f s).log = s.log := rfl
@[simp] theorem modIn_nv : (modIn n f s).nv = s.nv := rfl
@[simp] theorem modIn_absent : (modIn n f s).absent = s.absent := rfl
@[simp] theorem modIn_nonceDraws : (modIn n f s).nonceDraws = s.nonceDraws := rfl
@[simp] theorem modIn_freeDraws : (modIn n f s).freeDraws = s.freeDraws := rfl
@[simp] theorem modIn_pending : (modIn n f s).pending = s.pending := rfl
end

section
variable (b : Fin 2) (f : Ub → Ub) (s : State)
@[simp] theorem modUb_variant : (modUb b f s).variant = s.variant := rfl
@[simp] theorem modUb_tb : (modUb b f s).tb = s.tb := rfl
@[simp] theorem modUb_banks : (modUb b f s).banks = s.banks := rfl
@[simp] theorem modUb_ecc : (modUb b f s).ecc = s.ecc := rfl
@[simp] theorem modUb_cores : (modUb b f s).cores = s.cores := rfl
@[simp] theorem modUb_triads : (modUb b f s).triads = s.triads := rfl
@[simp] theorem modUb_tri : (modUb b f s).tri = s.tri := rfl
@[simp] theorem modUb_scn : (modUb b f s).scn = s.scn := rfl
@[simp] theorem modUb_parts : (modUb b f s).parts = s.parts := rfl
@[simp] theorem modUb_nvs : (modUb b f s).nvs = s.nvs := rfl
@[simp] theorem modUb_pim : (modUb b f s).pim = s.pim := rfl
@[simp] theorem modUb_olc : (modUb b f s).olc = s.olc := rfl
@[simp] theorem modUb_svy : (modUb b f s).svy = s.svy := rfl
@[simp] theorem modUb_dio : (modUb b f s).dio = s.dio := rfl
@[simp] theorem modUb_saf : (modUb b f s).saf = s.saf := rfl
@[simp] theorem modUb_ub : (modUb b f s).ub = vupd s.ub b f := rfl
@[simp] theorem modUb_can : (modUb b f s).can = s.can := rfl
@[simp] theorem modUb_hst : (modUb b f s).hst = s.hst := rfl
@[simp] theorem modUb_rck : (modUb b f s).rck = s.rck := rfl
@[simp] theorem modUb_clk : (modUb b f s).clk = s.clk := rfl
@[simp] theorem modUb_crc : (modUb b f s).crc = s.crc := rfl
@[simp] theorem modUb_crcCap : (modUb b f s).crcCap = s.crcCap := rfl
@[simp] theorem modUb_err : (modUb b f s).err = s.err := rfl
@[simp] theorem modUb_bst : (modUb b f s).bst = s.bst := rfl
@[simp] theorem modUb_log : (modUb b f s).log = s.log := rfl
@[simp] theorem modUb_nv : (modUb b f s).nv = s.nv := rfl
@[simp] theorem modUb_absent : (modUb b f s).absent = s.absent := rfl
@[simp] theorem modUb_nonceDraws : (modUb b f s).nonceDraws = s.nonceDraws := rfl
@[simp] theorem modUb_freeDraws : (modUb b f s).freeDraws = s.freeDraws := rfl
@[simp] theorem modUb_pending : (modUb b f s).pending = s.pending := rfl
end

section
variable (c : Fin 4) (f : Can → Can) (s : State)
@[simp] theorem modCan_variant : (modCan c f s).variant = s.variant := rfl
@[simp] theorem modCan_tb : (modCan c f s).tb = s.tb := rfl
@[simp] theorem modCan_banks : (modCan c f s).banks = s.banks := rfl
@[simp] theorem modCan_ecc : (modCan c f s).ecc = s.ecc := rfl
@[simp] theorem modCan_cores : (modCan c f s).cores = s.cores := rfl
@[simp] theorem modCan_triads : (modCan c f s).triads = s.triads := rfl
@[simp] theorem modCan_tri : (modCan c f s).tri = s.tri := rfl
@[simp] theorem modCan_scn : (modCan c f s).scn = s.scn := rfl
@[simp] theorem modCan_parts : (modCan c f s).parts = s.parts := rfl
@[simp] theorem modCan_nvs : (modCan c f s).nvs = s.nvs := rfl
@[simp] theorem modCan_pim : (modCan c f s).pim = s.pim := rfl
@[simp] theorem modCan_olc : (modCan c f s).olc = s.olc := rfl
@[simp] theorem modCan_svy : (modCan c f s).svy = s.svy := rfl
@[simp] theorem modCan_dio : (modCan c f s).dio = s.dio := rfl
@[simp] theorem modCan_saf : (modCan c f s).saf = s.saf := rfl
@[simp] theorem modCan_ub : (modCan c f s).ub = s.ub := rfl
@[simp] theorem modCan_can : (modCan c f s).can = vupd s.can c f := rfl
@[simp] theorem modCan_hst : (modCan c f s).hst = s.hst := rfl
@[simp] theorem modCan_rck : (modCan c f s).rck = s.rck := rfl
@[simp] theorem modCan_clk : (modCan c f s).clk = s.clk := rfl
@[simp] theorem modCan_crc : (modCan c f s).crc = s.crc := rfl
@[simp] theorem modCan_crcCap : (modCan c f s).crcCap = s.crcCap := rfl
@[simp] theorem modCan_err : (modCan c f s).err = s.err := rfl
@[simp] theorem modCan_bst : (modCan c f s).bst = s.bst := rfl
@[simp] theorem modCan_log : (modCan c f s).log = s.log := rfl
@[simp] theorem modCan_nv : (modCan c f s).nv = s.nv := rfl
@[simp] theorem modCan_absent : (modCan c f s).absent = s.absent := rfl
@[simp] theorem modCan_nonceDraws : (modCan c f s).nonceDraws = s.nonceDraws := rfl
@[simp] theorem modCan_freeDraws : (modCan c f s).freeDraws = s.freeDraws := rfl
@[simp] theorem modCan_pending : (modCan c f s).pending = s.pending := rfl
end

section
variable (r : Fin 8) (f : Ring → Ring) (s : State)
@[simp] theorem modRing_variant : (modRing r f s).variant = s.variant := rfl
@[simp] theorem modRing_tb : (modRing r f s).tb = s.tb := rfl
@[simp] theorem modRing_banks : (modRing r f s).banks = s.banks := rfl
@[simp] theorem modRing_ecc : (modRing r f s).ecc = s.ecc := rfl
@[simp] theorem modRing_cores : (modRing r f s).cores = s.cores := rfl
@[simp] theorem modRing_triads : (modRing r f s).triads = s.triads := rfl
@[simp] theorem modRing_tri : (modRing r f s).tri = s.tri := rfl
@[simp] theorem modRing_scn : (modRing r f s).scn = s.scn := rfl
@[simp] theorem modRing_parts : (modRing r f s).parts = s.parts := rfl
@[simp] theorem modRing_nvs : (modRing r f s).nvs = s.nvs := rfl
@[simp] theorem modRing_pim : (modRing r f s).pim = s.pim := rfl
@[simp] theorem modRing_olc : (modRing r f s).olc = s.olc := rfl
@[simp] theorem modRing_svy : (modRing r f s).svy = s.svy := rfl
@[simp] theorem modRing_dio : (modRing r f s).dio = s.dio := rfl
@[simp] theorem modRing_saf : (modRing r f s).saf = s.saf := rfl
@[simp] theorem modRing_ub : (modRing r f s).ub = s.ub := rfl
@[simp] theorem modRing_can : (modRing r f s).can = s.can := rfl
@[simp] theorem modRing_hst : (modRing r f s).hst = { s.hst with rings := vupd s.hst.rings r f } := rfl
@[simp] theorem modRing_rck : (modRing r f s).rck = s.rck := rfl
@[simp] theorem modRing_clk : (modRing r f s).clk = s.clk := rfl
@[simp] theorem modRing_crc : (modRing r f s).crc = s.crc := rfl
@[simp] theorem modRing_crcCap : (modRing r f s).crcCap = s.crcCap := rfl
@[simp] theorem modRing_err : (modRing r f s).err = s.err := rfl
@[simp] theorem modRing_bst : (modRing r f s).bst = s.bst := rfl
@[simp] theorem modRing_log : (modRing r f s).log = s.log := rfl
@[simp] theorem modRing_nv : (modRing r f s).nv = s.nv := rfl
@[simp] theorem modRing_absent : (modRing r f s).absent = s.absent := rfl
@[simp] theorem modRing_nonceDraws : (modRing r f s).nonceDraws = s.nonceDraws := rfl
@[simp] theorem modRing_freeDraws : (modRing r f s).freeDraws = s.freeDraws := rfl
@[simp] theorem modRing_pending : (modRing r f s).pending = s.pending := rfl
end

section
variable (u : Fin 8) (f : CrcU → CrcU) (s : State)
@[simp] theorem modCrc_variant : (modCrc u f s).variant = s.variant := rfl
@[simp] theorem modCrc_tb : (modCrc u f s).tb = s.tb := rfl
@[simp] theorem modCrc_banks : (modCrc u f s).banks = s.banks := rfl
@[simp] theorem modCrc_ecc : (modCrc u f s).ecc = s.ecc := rfl
@[simp] theorem modCrc_cores : (modCrc u f s).cores = s.cores := rfl
@[simp] theorem modCrc_triads : (modCrc u f s).triads = s.triads := rfl
@[simp] theorem modCrc_tri : (modCrc u f s).tri = s.tri := rfl
@[simp] theorem modCrc_scn : (modCrc u f s).scn = s.scn := rfl
@[simp] theorem modCrc_parts : (modCrc u f s).parts = s.parts := rfl
@[simp] theorem modCrc_nvs : (modCrc u f s).nvs = s.nvs := rfl
@[simp] theorem modCrc_pim : (modCrc u f s).pim = s.pim := rfl
@[simp] theorem modCrc_olc : (modCrc u f s).olc = s.olc := rfl
@[simp] theorem modCrc_svy : (modCrc u f s).svy = s.svy := rfl
@[simp] theorem modCrc_dio : (modCrc u f s).dio = s.dio := rfl
@[simp] theorem modCrc_saf : (modCrc u f s).saf = s.saf := rfl
@[simp] theorem modCrc_ub : (modCrc u f s).ub = s.ub := rfl
@[simp] theorem modCrc_can : (modCrc u f s).can = s.can := rfl
@[simp] theorem modCrc_hst : (modCrc u f s).hst = s.hst := rfl
@[simp] theorem modCrc_rck : (modCrc u f s).rck = s.rck := rfl
@[simp] theorem modCrc_clk : (modCrc u f s).clk = s.clk := rfl
@[simp] theorem modCrc_crc : (modCrc u f s).crc = vupd s.crc u f := rfl
@[simp] theorem modCrc_crcCap : (modCrc u f s).crcCap = s.crcCap := rfl
@[simp] theorem modCrc_err : (modCrc u f s).err = s.err := rfl
@[simp] theorem modCrc_bst : (modCrc u f s).bst = s.bst := rfl
@[simp] theorem modCrc_log : (modCrc u f s).log = s.log := rfl
@[simp] theorem modCrc_nv : (modCrc u f s).nv = s.nv := rfl
@[simp] theorem modCrc_absent : (modCrc u f s).absent = s.absent := rfl
@[simp] theorem modCrc_nonceDraws : (modCrc u f s).nonceDraws = s.nonceDraws := rfl
@[simp] theorem modCrc_freeDraws : (modCrc u f s).freeDraws = s.freeDraws := rfl
@[simp] theorem modCrc_pending : (modCrc u f s).pending = s.pending := rfl
end

section
variable (k : Fin 4) (f : Brk → Brk) (s : State)
@[simp] theorem modBrk_variant : (modBrk k f s).variant = s.variant := rfl
@[simp] theorem modBrk_tb : (modBrk k f s).tb = s.tb := rfl
@[simp] theorem modBrk_banks : (modBrk k f s).banks = s.banks := rfl
@[simp] theorem modBrk_ecc : (modBrk k f s).ecc = s.ecc := rfl
@[simp] theorem modBrk_cores : (modBrk k f s).cores = s.cores := rfl
@[simp] theorem modBrk_triads : (modBrk k f s).triads = s.triads := rfl
@[simp] theorem modBrk_tri : (modBrk k f s).tri = s.tri := rfl
@[simp] theorem modBrk_scn : (modBrk k f s).scn = s.scn := rfl
@[simp] theorem modBrk_parts : (modBrk k f s).parts = s.parts := rfl
@[simp] theorem modBrk_nvs : (modBrk k f s).nvs = s.nvs := rfl
@[simp] theorem modBrk_pim : (modBrk k f s).pim = s.pim := rfl
@[simp] theorem modBrk_olc : (modBrk k f s).olc = s.olc := rfl
@[simp] theorem modBrk_svy : (modBrk k f s).svy = s.svy := rfl
@[simp] theorem modBrk_dio : (modBrk k f s).dio = s.dio := rfl
@[simp] theorem modBrk_saf : (modBrk k f s).saf = { s.saf with brk := vupd s.saf.brk k f } := rfl
@[simp] theorem modBrk_ub : (modBrk k f s).ub = s.ub := rfl
@[simp] theorem modBrk_can : (modBrk k f s).can = s.can := rfl
@[simp] theorem modBrk_hst : (modBrk k f s).hst = s.hst := rfl
@[simp] theorem modBrk_rck : (modBrk k f s).rck = s.rck := rfl
@[simp] theorem modBrk_clk : (modBrk k f s).clk = s.clk := rfl
@[simp] theorem modBrk_crc : (modBrk k f s).crc = s.crc := rfl
@[simp] theorem modBrk_crcCap : (modBrk k f s).crcCap = s.crcCap := rfl
@[simp] theorem modBrk_err : (modBrk k f s).err = s.err := rfl
@[simp] theorem modBrk_bst : (modBrk k f s).bst = s.bst := rfl
@[simp] theorem modBrk_log : (modBrk k f s).log = s.log := rfl
@[simp] theorem modBrk_nv : (modBrk k f s).nv = s.nv := rfl
@[simp] theorem modBrk_absent : (modBrk k f s).absent = s.absent := rfl
@[simp] theorem modBrk_nonceDraws : (modBrk k f s).nonceDraws = s.nonceDraws := rfl
@[simp] theorem modBrk_freeDraws : (modBrk k f s).freeDraws = s.freeDraws := rfl
@[simp] theorem modBrk_pending : (modBrk k f s).pending = s.pending := rfl
end

section
variable (i : Fin 16) (f : RackPart → RackPart) (s : State)
@[simp] theorem modSlot_variant : (modSlot i f s).variant = s.variant := rfl
@[simp] theorem modSlot_tb : (modSlot i f s).tb = s.tb := rfl
@[simp] theorem modSlot_banks : (modSlot i f s).banks = s.banks := rfl
@[simp] theorem modSlot_ecc : (modSlot i f s).ecc = s.ecc := rfl
@[simp] theorem modSlot_cores : (modSlot i f s).cores = s.cores := rfl
@[simp] theorem modSlot_triads : (modSlot i f s).triads = s.triads := rfl
@[simp] theorem modSlot_tri : (modSlot i f s).tri = s.tri := rfl
@[simp] theorem modSlot_scn : (modSlot i f s).scn = s.scn := rfl
@[simp] theorem modSlot_parts : (modSlot i f s).parts = s.parts := rfl
@[simp] theorem modSlot_nvs : (modSlot i f s).nvs = s.nvs := rfl
@[simp] theorem modSlot_pim : (modSlot i f s).pim = s.pim := rfl
@[simp] theorem modSlot_olc : (modSlot i f s).olc = s.olc := rfl
@[simp] theorem modSlot_svy : (modSlot i f s).svy = s.svy := rfl
@[simp] theorem modSlot_dio : (modSlot i f s).dio = s.dio := rfl
@[simp] theorem modSlot_saf : (modSlot i f s).saf = s.saf := rfl
@[simp] theorem modSlot_ub : (modSlot i f s).ub = s.ub := rfl
@[simp] theorem modSlot_can : (modSlot i f s).can = s.can := rfl
@[simp] theorem modSlot_hst : (modSlot i f s).hst = s.hst := rfl
@[simp] theorem modSlot_rck : (modSlot i f s).rck = { s.rck with parts := vupd s.rck.parts i f } := rfl
@[simp] theorem modSlot_clk : (modSlot i f s).clk = s.clk := rfl
@[simp] theorem modSlot_crc : (modSlot i f s).crc = s.crc := rfl
@[simp] theorem modSlot_crcCap : (modSlot i f s).crcCap = s.crcCap := rfl
@[simp] theorem modSlot_err : (modSlot i f s).err = s.err := rfl
@[simp] theorem modSlot_bst : (modSlot i f s).bst = s.bst := rfl
@[simp] theorem modSlot_log : (modSlot i f s).log = s.log := rfl
@[simp] theorem modSlot_nv : (modSlot i f s).nv = s.nv := rfl
@[simp] theorem modSlot_absent : (modSlot i f s).absent = s.absent := rfl
@[simp] theorem modSlot_nonceDraws : (modSlot i f s).nonceDraws = s.nonceDraws := rfl
@[simp] theorem modSlot_freeDraws : (modSlot i f s).freeDraws = s.freeDraws := rfl
@[simp] theorem modSlot_pending : (modSlot i f s).pending = s.pending := rfl
end

section
variable (l : Lane) (f : LaneImg → LaneImg) (s : State)
@[simp] theorem modImg_variant : (modImg l f s).variant = s.variant := rfl
@[simp] theorem modImg_tb : (modImg l f s).tb = s.tb := rfl
@[simp] theorem modImg_banks : (modImg l f s).banks = s.banks := rfl
@[simp] theorem modImg_ecc : (modImg l f s).ecc = s.ecc := rfl
@[simp] theorem modImg_cores : (modImg l f s).cores = s.cores := rfl
@[simp] theorem modImg_triads : (modImg l f s).triads = s.triads := rfl
@[simp] theorem modImg_tri : (modImg l f s).tri = s.tri := rfl
@[simp] theorem modImg_scn : (modImg l f s).scn = s.scn := rfl
@[simp] theorem modImg_parts : (modImg l f s).parts = s.parts := rfl
@[simp] theorem modImg_nvs : (modImg l f s).nvs = s.nvs := rfl
@[simp] theorem modImg_pim : (modImg l f s).pim = { s.pim with img := vupd s.pim.img l f } := rfl
@[simp] theorem modImg_olc : (modImg l f s).olc = s.olc := rfl
@[simp] theorem modImg_svy : (modImg l f s).svy = s.svy := rfl
@[simp] theorem modImg_dio : (modImg l f s).dio = s.dio := rfl
@[simp] theorem modImg_saf : (modImg l f s).saf = s.saf := rfl
@[simp] theorem modImg_ub : (modImg l f s).ub = s.ub := rfl
@[simp] theorem modImg_can : (modImg l f s).can = s.can := rfl
@[simp] theorem modImg_hst : (modImg l f s).hst = s.hst := rfl
@[simp] theorem modImg_rck : (modImg l f s).rck = s.rck := rfl
@[simp] theorem modImg_clk : (modImg l f s).clk = s.clk := rfl
@[simp] theorem modImg_crc : (modImg l f s).crc = s.crc := rfl
@[simp] theorem modImg_crcCap : (modImg l f s).crcCap = s.crcCap := rfl
@[simp] theorem modImg_err : (modImg l f s).err = s.err := rfl
@[simp] theorem modImg_bst : (modImg l f s).bst = s.bst := rfl
@[simp] theorem modImg_log : (modImg l f s).log = s.log := rfl
@[simp] theorem modImg_nv : (modImg l f s).nv = s.nv := rfl
@[simp] theorem modImg_absent : (modImg l f s).absent = s.absent := rfl
@[simp] theorem modImg_nonceDraws : (modImg l f s).nonceDraws = s.nonceDraws := rfl
@[simp] theorem modImg_freeDraws : (modImg l f s).freeDraws = s.freeDraws := rfl
@[simp] theorem modImg_pending : (modImg l f s).pending = s.pending := rfl
end

section
variable (t : TriadId) (f : Voter → Voter) (s : State)
@[simp] theorem modVoter_variant : (modVoter t f s).variant = s.variant := rfl
@[simp] theorem modVoter_tb : (modVoter t f s).tb = s.tb := rfl
@[simp] theorem modVoter_banks : (modVoter t f s).banks = s.banks := rfl
@[simp] theorem modVoter_ecc : (modVoter t f s).ecc = s.ecc := rfl
@[simp] theorem modVoter_cores : (modVoter t f s).cores = s.cores := rfl
@[simp] theorem modVoter_triads : (modVoter t f s).triads = vupd s.triads t (fun x => { x with voter := f x.voter }) := rfl
@[simp] theorem modVoter_tri : (modVoter t f s).tri = s.tri := rfl
@[simp] theorem modVoter_scn : (modVoter t f s).scn = s.scn := rfl
@[simp] theorem modVoter_parts : (modVoter t f s).parts = s.parts := rfl
@[simp] theorem modVoter_nvs : (modVoter t f s).nvs = s.nvs := rfl
@[simp] theorem modVoter_pim : (modVoter t f s).pim = s.pim := rfl
@[simp] theorem modVoter_olc : (modVoter t f s).olc = s.olc := rfl
@[simp] theorem modVoter_svy : (modVoter t f s).svy = s.svy := rfl
@[simp] theorem modVoter_dio : (modVoter t f s).dio = s.dio := rfl
@[simp] theorem modVoter_saf : (modVoter t f s).saf = s.saf := rfl
@[simp] theorem modVoter_ub : (modVoter t f s).ub = s.ub := rfl
@[simp] theorem modVoter_can : (modVoter t f s).can = s.can := rfl
@[simp] theorem modVoter_hst : (modVoter t f s).hst = s.hst := rfl
@[simp] theorem modVoter_rck : (modVoter t f s).rck = s.rck := rfl
@[simp] theorem modVoter_clk : (modVoter t f s).clk = s.clk := rfl
@[simp] theorem modVoter_crc : (modVoter t f s).crc = s.crc := rfl
@[simp] theorem modVoter_crcCap : (modVoter t f s).crcCap = s.crcCap := rfl
@[simp] theorem modVoter_err : (modVoter t f s).err = s.err := rfl
@[simp] theorem modVoter_bst : (modVoter t f s).bst = s.bst := rfl
@[simp] theorem modVoter_log : (modVoter t f s).log = s.log := rfl
@[simp] theorem modVoter_nv : (modVoter t f s).nv = s.nv := rfl
@[simp] theorem modVoter_absent : (modVoter t f s).absent = s.absent := rfl
@[simp] theorem modVoter_nonceDraws : (modVoter t f s).nonceDraws = s.nonceDraws := rfl
@[simp] theorem modVoter_freeDraws : (modVoter t f s).freeDraws = s.freeDraws := rfl
@[simp] theorem modVoter_pending : (modVoter t f s).pending = s.pending := rfl
end

section
variable (t : TriadId) (f : Heel → Heel) (s : State)
@[simp] theorem modHeel_variant : (modHeel t f s).variant = s.variant := rfl
@[simp] theorem modHeel_tb : (modHeel t f s).tb = s.tb := rfl
@[simp] theorem modHeel_banks : (modHeel t f s).banks = s.banks := rfl
@[simp] theorem modHeel_ecc : (modHeel t f s).ecc = s.ecc := rfl
@[simp] theorem modHeel_cores : (modHeel t f s).cores = s.cores := rfl
@[simp] theorem modHeel_triads : (modHeel t f s).triads = vupd s.triads t (fun x => { x with heel := f x.heel }) := rfl
@[simp] theorem modHeel_tri : (modHeel t f s).tri = s.tri := rfl
@[simp] theorem modHeel_scn : (modHeel t f s).scn = s.scn := rfl
@[simp] theorem modHeel_parts : (modHeel t f s).parts = s.parts := rfl
@[simp] theorem modHeel_nvs : (modHeel t f s).nvs = s.nvs := rfl
@[simp] theorem modHeel_pim : (modHeel t f s).pim = s.pim := rfl
@[simp] theorem modHeel_olc : (modHeel t f s).olc = s.olc := rfl
@[simp] theorem modHeel_svy : (modHeel t f s).svy = s.svy := rfl
@[simp] theorem modHeel_dio : (modHeel t f s).dio = s.dio := rfl
@[simp] theorem modHeel_saf : (modHeel t f s).saf = s.saf := rfl
@[simp] theorem modHeel_ub : (modHeel t f s).ub = s.ub := rfl
@[simp] theorem modHeel_can : (modHeel t f s).can = s.can := rfl
@[simp] theorem modHeel_hst : (modHeel t f s).hst = s.hst := rfl
@[simp] theorem modHeel_rck : (modHeel t f s).rck = s.rck := rfl
@[simp] theorem modHeel_clk : (modHeel t f s).clk = s.clk := rfl
@[simp] theorem modHeel_crc : (modHeel t f s).crc = s.crc := rfl
@[simp] theorem modHeel_crcCap : (modHeel t f s).crcCap = s.crcCap := rfl
@[simp] theorem modHeel_err : (modHeel t f s).err = s.err := rfl
@[simp] theorem modHeel_bst : (modHeel t f s).bst = s.bst := rfl
@[simp] theorem modHeel_log : (modHeel t f s).log = s.log := rfl
@[simp] theorem modHeel_nv : (modHeel t f s).nv = s.nv := rfl
@[simp] theorem modHeel_absent : (modHeel t f s).absent = s.absent := rfl
@[simp] theorem modHeel_nonceDraws : (modHeel t f s).nonceDraws = s.nonceDraws := rfl
@[simp] theorem modHeel_freeDraws : (modHeel t f s).freeDraws = s.freeDraws := rfl
@[simp] theorem modHeel_pending : (modHeel t f s).pending = s.pending := rfl
end

section
variable (t : TriadId) (f : Hnd → Hnd) (s : State)
@[simp] theorem modHnd_variant : (modHnd t f s).variant = s.variant := rfl
@[simp] theorem modHnd_tb : (modHnd t f s).tb = s.tb := rfl
@[simp] theorem modHnd_banks : (modHnd t f s).banks = s.banks := rfl
@[simp] theorem modHnd_ecc : (modHnd t f s).ecc = s.ecc := rfl
@[simp] theorem modHnd_cores : (modHnd t f s).cores = s.cores := rfl
@[simp] theorem modHnd_triads : (modHnd t f s).triads = vupd s.triads t (fun x => { x with hnd := f x.hnd }) := rfl
@[simp] theorem modHnd_tri : (modHnd t f s).tri = s.tri := rfl
@[simp] theorem modHnd_scn : (modHnd t f s).scn = s.scn := rfl
@[simp] theorem modHnd_parts : (modHnd t f s).parts = s.parts := rfl
@[simp] theorem modHnd_nvs : (modHnd t f s).nvs = s.nvs := rfl
@[simp] theorem modHnd_pim : (modHnd t f s).pim = s.pim := rfl
@[simp] theorem modHnd_olc : (modHnd t f s).olc = s.olc := rfl
@[simp] theorem modHnd_svy : (modHnd t f s).svy = s.svy := rfl
@[simp] theorem modHnd_dio : (modHnd t f s).dio = s.dio := rfl
@[simp] theorem modHnd_saf : (modHnd t f s).saf = s.saf := rfl
@[simp] theorem modHnd_ub : (modHnd t f s).ub = s.ub := rfl
@[simp] theorem modHnd_can : (modHnd t f s).can = s.can := rfl
@[simp] theorem modHnd_hst : (modHnd t f s).hst = s.hst := rfl
@[simp] theorem modHnd_rck : (modHnd t f s).rck = s.rck := rfl
@[simp] theorem modHnd_clk : (modHnd t f s).clk = s.clk := rfl
@[simp] theorem modHnd_crc : (modHnd t f s).crc = s.crc := rfl
@[simp] theorem modHnd_crcCap : (modHnd t f s).crcCap = s.crcCap := rfl
@[simp] theorem modHnd_err : (modHnd t f s).err = s.err := rfl
@[simp] theorem modHnd_bst : (modHnd t f s).bst = s.bst := rfl
@[simp] theorem modHnd_log : (modHnd t f s).log = s.log := rfl
@[simp] theorem modHnd_nv : (modHnd t f s).nv = s.nv := rfl
@[simp] theorem modHnd_absent : (modHnd t f s).absent = s.absent := rfl
@[simp] theorem modHnd_nonceDraws : (modHnd t f s).nonceDraws = s.nonceDraws := rfl
@[simp] theorem modHnd_freeDraws : (modHnd t f s).freeDraws = s.freeDraws := rfl
@[simp] theorem modHnd_pending : (modHnd t f s).pending = s.pending := rfl
end

section
variable (n : Nat) (s : State)
@[simp] theorem advanceTo_variant : (advanceTo n s).variant = s.variant := rfl
@[simp] theorem advanceTo_tb : (advanceTo n s).tb = tbAt s n := rfl
@[simp] theorem advanceTo_banks : (advanceTo n s).banks = s.banks := rfl
@[simp] theorem advanceTo_ecc : (advanceTo n s).ecc = s.ecc := rfl
@[simp] theorem advanceTo_cores : (advanceTo n s).cores = s.cores := rfl
@[simp] theorem advanceTo_triads : (advanceTo n s).triads = s.triads := rfl
@[simp] theorem advanceTo_tri : (advanceTo n s).tri = s.tri := rfl
@[simp] theorem advanceTo_scn : (advanceTo n s).scn = s.scn := rfl
@[simp] theorem advanceTo_parts : (advanceTo n s).parts = s.parts := rfl
@[simp] theorem advanceTo_nvs : (advanceTo n s).nvs = s.nvs := rfl
@[simp] theorem advanceTo_pim : (advanceTo n s).pim = s.pim := rfl
@[simp] theorem advanceTo_olc : (advanceTo n s).olc = s.olc := rfl
@[simp] theorem advanceTo_svy : (advanceTo n s).svy = s.svy := rfl
@[simp] theorem advanceTo_dio : (advanceTo n s).dio = s.dio := rfl
@[simp] theorem advanceTo_saf : (advanceTo n s).saf = s.saf := rfl
@[simp] theorem advanceTo_ub : (advanceTo n s).ub = s.ub := rfl
@[simp] theorem advanceTo_can : (advanceTo n s).can = s.can := rfl
@[simp] theorem advanceTo_hst : (advanceTo n s).hst = s.hst := rfl
@[simp] theorem advanceTo_rck : (advanceTo n s).rck = s.rck := rfl
@[simp] theorem advanceTo_clk : (advanceTo n s).clk = s.clk := rfl
@[simp] theorem advanceTo_crc : (advanceTo n s).crc = s.crc := rfl
@[simp] theorem advanceTo_crcCap : (advanceTo n s).crcCap = s.crcCap := rfl
@[simp] theorem advanceTo_err : (advanceTo n s).err = s.err := rfl
@[simp] theorem advanceTo_bst : (advanceTo n s).bst = s.bst := rfl
@[simp] theorem advanceTo_log : (advanceTo n s).log = s.log := rfl
@[simp] theorem advanceTo_nv : (advanceTo n s).nv = s.nv := rfl
@[simp] theorem advanceTo_absent : (advanceTo n s).absent = s.absent := rfl
@[simp] theorem advanceTo_nonceDraws : (advanceTo n s).nonceDraws = s.nonceDraws := rfl
@[simp] theorem advanceTo_freeDraws : (advanceTo n s).freeDraws = s.freeDraws := rfl
@[simp] theorem advanceTo_pending : (advanceTo n s).pending = s.pending := rfl
end

section
variable (o n : Nat) (s : State)
@[simp] theorem logAdd_variant : (logAdd o n s).variant = s.variant := rfl
@[simp] theorem logAdd_tb : (logAdd o n s).tb = s.tb := rfl
@[simp] theorem logAdd_banks : (logAdd o n s).banks = s.banks := rfl
@[simp] theorem logAdd_ecc : (logAdd o n s).ecc = s.ecc := rfl
@[simp] theorem logAdd_cores : (logAdd o n s).cores = s.cores := rfl
@[simp] theorem logAdd_triads : (logAdd o n s).triads = s.triads := rfl
@[simp] theorem logAdd_tri : (logAdd o n s).tri = s.tri := rfl
@[simp] theorem logAdd_scn : (logAdd o n s).scn = s.scn := rfl
@[simp] theorem logAdd_parts : (logAdd o n s).parts = s.parts := rfl
@[simp] theorem logAdd_nvs : (logAdd o n s).nvs = s.nvs := rfl
@[simp] theorem logAdd_pim : (logAdd o n s).pim = s.pim := rfl
@[simp] theorem logAdd_olc : (logAdd o n s).olc = s.olc := rfl
@[simp] theorem logAdd_svy : (logAdd o n s).svy = s.svy := rfl
@[simp] theorem logAdd_dio : (logAdd o n s).dio = s.dio := rfl
@[simp] theorem logAdd_saf : (logAdd o n s).saf = s.saf := rfl
@[simp] theorem logAdd_ub : (logAdd o n s).ub = s.ub := rfl
@[simp] theorem logAdd_can : (logAdd o n s).can = s.can := rfl
@[simp] theorem logAdd_hst : (logAdd o n s).hst = s.hst := rfl
@[simp] theorem logAdd_rck : (logAdd o n s).rck = s.rck := rfl
@[simp] theorem logAdd_clk : (logAdd o n s).clk = s.clk := rfl
@[simp] theorem logAdd_crc : (logAdd o n s).crc = s.crc := rfl
@[simp] theorem logAdd_crcCap : (logAdd o n s).crcCap = s.crcCap := rfl
@[simp] theorem logAdd_err : (logAdd o n s).err = s.err := rfl
@[simp] theorem logAdd_bst : (logAdd o n s).bst = s.bst := rfl
@[simp] theorem logAdd_nv : (logAdd o n s).nv = s.nv := rfl
@[simp] theorem logAdd_absent : (logAdd o n s).absent = s.absent := rfl
@[simp] theorem logAdd_nonceDraws : (logAdd o n s).nonceDraws = s.nonceDraws := rfl
@[simp] theorem logAdd_freeDraws : (logAdd o n s).freeDraws = s.freeDraws := rfl
@[simp] theorem logAdd_pending : (logAdd o n s).pending = s.pending := rfl
end

section
variable (f : Scn → Scn) (s : State)
@[simp] theorem modScan_variant : (modScan f s).variant = s.variant := rfl
@[simp] theorem modScan_tb : (modScan f s).tb = s.tb := rfl
@[simp] theorem modScan_banks : (modScan f s).banks = s.banks := rfl
@[simp] theorem modScan_ecc : (modScan f s).ecc = s.ecc := rfl
@[simp] theorem modScan_cores : (modScan f s).cores = s.cores := rfl
@[simp] theorem modScan_triads : (modScan f s).triads = s.triads := rfl
@[simp] theorem modScan_tri : (modScan f s).tri = s.tri := rfl
@[simp] theorem modScan_scn : (modScan f s).scn = f s.scn := rfl
@[simp] theorem modScan_parts : (modScan f s).parts = s.parts := rfl
@[simp] theorem modScan_nvs : (modScan f s).nvs = s.nvs := rfl
@[simp] theorem modScan_pim : (modScan f s).pim = s.pim := rfl
@[simp] theorem modScan_olc : (modScan f s).olc = s.olc := rfl
@[simp] theorem modScan_svy : (modScan f s).svy = s.svy := rfl
@[simp] theorem modScan_dio : (modScan f s).dio = s.dio := rfl
@[simp] theorem modScan_saf : (modScan f s).saf = s.saf := rfl
@[simp] theorem modScan_ub : (modScan f s).ub = s.ub := rfl
@[simp] theorem modScan_can : (modScan f s).can = s.can := rfl
@[simp] theorem modScan_hst : (modScan f s).hst = s.hst := rfl
@[simp] theorem modScan_rck : (modScan f s).rck = s.rck := rfl
@[simp] theorem modScan_clk : (modScan f s).clk = s.clk := rfl
@[simp] theorem modScan_crc : (modScan f s).crc = s.crc := rfl
@[simp] theorem modScan_crcCap : (modScan f s).crcCap = s.crcCap := rfl
@[simp] theorem modScan_err : (modScan f s).err = s.err := rfl
@[simp] theorem modScan_bst : (modScan f s).bst = s.bst := rfl
@[simp] theorem modScan_log : (modScan f s).log = s.log := rfl
@[simp] theorem modScan_nv : (modScan f s).nv = s.nv := rfl
@[simp] theorem modScan_absent : (modScan f s).absent = s.absent := rfl
@[simp] theorem modScan_nonceDraws : (modScan f s).nonceDraws = s.nonceDraws := rfl
@[simp] theorem modScan_freeDraws : (modScan f s).freeDraws = s.freeDraws := rfl
@[simp] theorem modScan_pending : (modScan f s).pending = s.pending := rfl
end

section
variable (f : Clk → Clk) (s : State)
@[simp] theorem modClk_variant : (modClk f s).variant = s.variant := rfl
@[simp] theorem modClk_tb : (modClk f s).tb = s.tb := rfl
@[simp] theorem modClk_banks : (modClk f s).banks = s.banks := rfl
@[simp] theorem modClk_ecc : (modClk f s).ecc = s.ecc := rfl
@[simp] theorem modClk_cores : (modClk f s).cores = s.cores := rfl
@[simp] theorem modClk_triads : (modClk f s).triads = s.triads := rfl
@[simp] theorem modClk_tri : (modClk f s).tri = s.tri := rfl
@[simp] theorem modClk_scn : (modClk f s).scn = s.scn := rfl
@[simp] theorem modClk_parts : (modClk f s).parts = s.parts := rfl
@[simp] theorem modClk_nvs : (modClk f s).nvs = s.nvs := rfl
@[simp] theorem modClk_pim : (modClk f s).pim = s.pim := rfl
@[simp] theorem modClk_olc : (modClk f s).olc = s.olc := rfl
@[simp] theorem modClk_svy : (modClk f s).svy = s.svy := rfl
@[simp] theorem modClk_dio : (modClk f s).dio = s.dio := rfl
@[simp] theorem modClk_saf : (modClk f s).saf = s.saf := rfl
@[simp] theorem modClk_ub : (modClk f s).ub = s.ub := rfl
@[simp] theorem modClk_can : (modClk f s).can = s.can := rfl
@[simp] theorem modClk_hst : (modClk f s).hst = s.hst := rfl
@[simp] theorem modClk_rck : (modClk f s).rck = s.rck := rfl
@[simp] theorem modClk_clk : (modClk f s).clk = f s.clk := rfl
@[simp] theorem modClk_crc : (modClk f s).crc = s.crc := rfl
@[simp] theorem modClk_crcCap : (modClk f s).crcCap = s.crcCap := rfl
@[simp] theorem modClk_err : (modClk f s).err = s.err := rfl
@[simp] theorem modClk_bst : (modClk f s).bst = s.bst := rfl
@[simp] theorem modClk_log : (modClk f s).log = s.log := rfl
@[simp] theorem modClk_nv : (modClk f s).nv = s.nv := rfl
@[simp] theorem modClk_absent : (modClk f s).absent = s.absent := rfl
@[simp] theorem modClk_nonceDraws : (modClk f s).nonceDraws = s.nonceDraws := rfl
@[simp] theorem modClk_freeDraws : (modClk f s).freeDraws = s.freeDraws := rfl
@[simp] theorem modClk_pending : (modClk f s).pending = s.pending := rfl
end

section
variable (f : Dio → Dio) (s : State)
@[simp] theorem modDio_variant : (modDio f s).variant = s.variant := rfl
@[simp] theorem modDio_tb : (modDio f s).tb = s.tb := rfl
@[simp] theorem modDio_banks : (modDio f s).banks = s.banks := rfl
@[simp] theorem modDio_ecc : (modDio f s).ecc = s.ecc := rfl
@[simp] theorem modDio_cores : (modDio f s).cores = s.cores := rfl
@[simp] theorem modDio_triads : (modDio f s).triads = s.triads := rfl
@[simp] theorem modDio_tri : (modDio f s).tri = s.tri := rfl
@[simp] theorem modDio_scn : (modDio f s).scn = s.scn := rfl
@[simp] theorem modDio_parts : (modDio f s).parts = s.parts := rfl
@[simp] theorem modDio_nvs : (modDio f s).nvs = s.nvs := rfl
@[simp] theorem modDio_pim : (modDio f s).pim = s.pim := rfl
@[simp] theorem modDio_olc : (modDio f s).olc = s.olc := rfl
@[simp] theorem modDio_svy : (modDio f s).svy = s.svy := rfl
@[simp] theorem modDio_dio : (modDio f s).dio = f s.dio := rfl
@[simp] theorem modDio_saf : (modDio f s).saf = s.saf := rfl
@[simp] theorem modDio_ub : (modDio f s).ub = s.ub := rfl
@[simp] theorem modDio_can : (modDio f s).can = s.can := rfl
@[simp] theorem modDio_hst : (modDio f s).hst = s.hst := rfl
@[simp] theorem modDio_rck : (modDio f s).rck = s.rck := rfl
@[simp] theorem modDio_clk : (modDio f s).clk = s.clk := rfl
@[simp] theorem modDio_crc : (modDio f s).crc = s.crc := rfl
@[simp] theorem modDio_crcCap : (modDio f s).crcCap = s.crcCap := rfl
@[simp] theorem modDio_err : (modDio f s).err = s.err := rfl
@[simp] theorem modDio_bst : (modDio f s).bst = s.bst := rfl
@[simp] theorem modDio_log : (modDio f s).log = s.log := rfl
@[simp] theorem modDio_nv : (modDio f s).nv = s.nv := rfl
@[simp] theorem modDio_absent : (modDio f s).absent = s.absent := rfl
@[simp] theorem modDio_nonceDraws : (modDio f s).nonceDraws = s.nonceDraws := rfl
@[simp] theorem modDio_freeDraws : (modDio f s).freeDraws = s.freeDraws := rfl
@[simp] theorem modDio_pending : (modDio f s).pending = s.pending := rfl
end

section
variable (f : Saf → Saf) (s : State)
@[simp] theorem modSaf_variant : (modSaf f s).variant = s.variant := rfl
@[simp] theorem modSaf_tb : (modSaf f s).tb = s.tb := rfl
@[simp] theorem modSaf_banks : (modSaf f s).banks = s.banks := rfl
@[simp] theorem modSaf_ecc : (modSaf f s).ecc = s.ecc := rfl
@[simp] theorem modSaf_cores : (modSaf f s).cores = s.cores := rfl
@[simp] theorem modSaf_triads : (modSaf f s).triads = s.triads := rfl
@[simp] theorem modSaf_tri : (modSaf f s).tri = s.tri := rfl
@[simp] theorem modSaf_scn : (modSaf f s).scn = s.scn := rfl
@[simp] theorem modSaf_parts : (modSaf f s).parts = s.parts := rfl
@[simp] theorem modSaf_nvs : (modSaf f s).nvs = s.nvs := rfl
@[simp] theorem modSaf_pim : (modSaf f s).pim = s.pim := rfl
@[simp] theorem modSaf_olc : (modSaf f s).olc = s.olc := rfl
@[simp] theorem modSaf_svy : (modSaf f s).svy = s.svy := rfl
@[simp] theorem modSaf_dio : (modSaf f s).dio = s.dio := rfl
@[simp] theorem modSaf_saf : (modSaf f s).saf = f s.saf := rfl
@[simp] theorem modSaf_ub : (modSaf f s).ub = s.ub := rfl
@[simp] theorem modSaf_can : (modSaf f s).can = s.can := rfl
@[simp] theorem modSaf_hst : (modSaf f s).hst = s.hst := rfl
@[simp] theorem modSaf_rck : (modSaf f s).rck = s.rck := rfl
@[simp] theorem modSaf_clk : (modSaf f s).clk = s.clk := rfl
@[simp] theorem modSaf_crc : (modSaf f s).crc = s.crc := rfl
@[simp] theorem modSaf_crcCap : (modSaf f s).crcCap = s.crcCap := rfl
@[simp] theorem modSaf_err : (modSaf f s).err = s.err := rfl
@[simp] theorem modSaf_bst : (modSaf f s).bst = s.bst := rfl
@[simp] theorem modSaf_log : (modSaf f s).log = s.log := rfl
@[simp] theorem modSaf_nv : (modSaf f s).nv = s.nv := rfl
@[simp] theorem modSaf_absent : (modSaf f s).absent = s.absent := rfl
@[simp] theorem modSaf_nonceDraws : (modSaf f s).nonceDraws = s.nonceDraws := rfl
@[simp] theorem modSaf_freeDraws : (modSaf f s).freeDraws = s.freeDraws := rfl
@[simp] theorem modSaf_pending : (modSaf f s).pending = s.pending := rfl
end

section
variable (f : Rck → Rck) (s : State)
@[simp] theorem modRck_variant : (modRck f s).variant = s.variant := rfl
@[simp] theorem modRck_tb : (modRck f s).tb = s.tb := rfl
@[simp] theorem modRck_banks : (modRck f s).banks = s.banks := rfl
@[simp] theorem modRck_ecc : (modRck f s).ecc = s.ecc := rfl
@[simp] theorem modRck_cores : (modRck f s).cores = s.cores := rfl
@[simp] theorem modRck_triads : (modRck f s).triads = s.triads := rfl
@[simp] theorem modRck_tri : (modRck f s).tri = s.tri := rfl
@[simp] theorem modRck_scn : (modRck f s).scn = s.scn := rfl
@[simp] theorem modRck_parts : (modRck f s).parts = s.parts := rfl
@[simp] theorem modRck_nvs : (modRck f s).nvs = s.nvs := rfl
@[simp] theorem modRck_pim : (modRck f s).pim = s.pim := rfl
@[simp] theorem modRck_olc : (modRck f s).olc = s.olc := rfl
@[simp] theorem modRck_svy : (modRck f s).svy = s.svy := rfl
@[simp] theorem modRck_dio : (modRck f s).dio = s.dio := rfl
@[simp] theorem modRck_saf : (modRck f s).saf = s.saf := rfl
@[simp] theorem modRck_ub : (modRck f s).ub = s.ub := rfl
@[simp] theorem modRck_can : (modRck f s).can = s.can := rfl
@[simp] theorem modRck_hst : (modRck f s).hst = s.hst := rfl
@[simp] theorem modRck_rck : (modRck f s).rck = f s.rck := rfl
@[simp] theorem modRck_clk : (modRck f s).clk = s.clk := rfl
@[simp] theorem modRck_crc : (modRck f s).crc = s.crc := rfl
@[simp] theorem modRck_crcCap : (modRck f s).crcCap = s.crcCap := rfl
@[simp] theorem modRck_err : (modRck f s).err = s.err := rfl
@[simp] theorem modRck_bst : (modRck f s).bst = s.bst := rfl
@[simp] theorem modRck_log : (modRck f s).log = s.log := rfl
@[simp] theorem modRck_nv : (modRck f s).nv = s.nv := rfl
@[simp] theorem modRck_absent : (modRck f s).absent = s.absent := rfl
@[simp] theorem modRck_nonceDraws : (modRck f s).nonceDraws = s.nonceDraws := rfl
@[simp] theorem modRck_freeDraws : (modRck f s).freeDraws = s.freeDraws := rfl
@[simp] theorem modRck_pending : (modRck f s).pending = s.pending := rfl
end

section
variable (f : Hst → Hst) (s : State)
@[simp] theorem modHst_variant : (modHst f s).variant = s.variant := rfl
@[simp] theorem modHst_tb : (modHst f s).tb = s.tb := rfl
@[simp] theorem modHst_banks : (modHst f s).banks = s.banks := rfl
@[simp] theorem modHst_ecc : (modHst f s).ecc = s.ecc := rfl
@[simp] theorem modHst_cores : (modHst f s).cores = s.cores := rfl
@[simp] theorem modHst_triads : (modHst f s).triads = s.triads := rfl
@[simp] theorem modHst_tri : (modHst f s).tri = s.tri := rfl
@[simp] theorem modHst_scn : (modHst f s).scn = s.scn := rfl
@[simp] theorem modHst_parts : (modHst f s).parts = s.parts := rfl
@[simp] theorem modHst_nvs : (modHst f s).nvs = s.nvs := rfl
@[simp] theorem modHst_pim : (modHst f s).pim = s.pim := rfl
@[simp] theorem modHst_olc : (modHst f s).olc = s.olc := rfl
@[simp] theorem modHst_svy : (modHst f s).svy = s.svy := rfl
@[simp] theorem modHst_dio : (modHst f s).dio = s.dio := rfl
@[simp] theorem modHst_saf : (modHst f s).saf = s.saf := rfl
@[simp] theorem modHst_ub : (modHst f s).ub = s.ub := rfl
@[simp] theorem modHst_can : (modHst f s).can = s.can := rfl
@[simp] theorem modHst_hst : (modHst f s).hst = f s.hst := rfl
@[simp] theorem modHst_rck : (modHst f s).rck = s.rck := rfl
@[simp] theorem modHst_clk : (modHst f s).clk = s.clk := rfl
@[simp] theorem modHst_crc : (modHst f s).crc = s.crc := rfl
@[simp] theorem modHst_crcCap : (modHst f s).crcCap = s.crcCap := rfl
@[simp] theorem modHst_err : (modHst f s).err = s.err := rfl
@[simp] theorem modHst_bst : (modHst f s).bst = s.bst := rfl
@[simp] theorem modHst_log : (modHst f s).log = s.log := rfl
@[simp] theorem modHst_nv : (modHst f s).nv = s.nv := rfl
@[simp] theorem modHst_absent : (modHst f s).absent = s.absent := rfl
@[simp] theorem modHst_nonceDraws : (modHst f s).nonceDraws = s.nonceDraws := rfl
@[simp] theorem modHst_freeDraws : (modHst f s).freeDraws = s.freeDraws := rfl
@[simp] theorem modHst_pending : (modHst f s).pending = s.pending := rfl
end

section
variable (f : Svy → Svy) (s : State)
@[simp] theorem modSvy_variant : (modSvy f s).variant = s.variant := rfl
@[simp] theorem modSvy_tb : (modSvy f s).tb = s.tb := rfl
@[simp] theorem modSvy_banks : (modSvy f s).banks = s.banks := rfl
@[simp] theorem modSvy_ecc : (modSvy f s).ecc = s.ecc := rfl
@[simp] theorem modSvy_cores : (modSvy f s).cores = s.cores := rfl
@[simp] theorem modSvy_triads : (modSvy f s).triads = s.triads := rfl
@[simp] theorem modSvy_tri : (modSvy f s).tri = s.tri := rfl
@[simp] theorem modSvy_scn : (modSvy f s).scn = s.scn := rfl
@[simp] theorem modSvy_parts : (modSvy f s).parts = s.parts := rfl
@[simp] theorem modSvy_nvs : (modSvy f s).nvs = s.nvs := rfl
@[simp] theorem modSvy_pim : (modSvy f s).pim = s.pim := rfl
@[simp] theorem modSvy_olc : (modSvy f s).olc = s.olc := rfl
@[simp] theorem modSvy_svy : (modSvy f s).svy = f s.svy := rfl
@[simp] theorem modSvy_dio : (modSvy f s).dio = s.dio := rfl
@[simp] theorem modSvy_saf : (modSvy f s).saf = s.saf := rfl
@[simp] theorem modSvy_ub : (modSvy f s).ub = s.ub := rfl
@[simp] theorem modSvy_can : (modSvy f s).can = s.can := rfl
@[simp] theorem modSvy_hst : (modSvy f s).hst = s.hst := rfl
@[simp] theorem modSvy_rck : (modSvy f s).rck = s.rck := rfl
@[simp] theorem modSvy_clk : (modSvy f s).clk = s.clk := rfl
@[simp] theorem modSvy_crc : (modSvy f s).crc = s.crc := rfl
@[simp] theorem modSvy_crcCap : (modSvy f s).crcCap = s.crcCap := rfl
@[simp] theorem modSvy_err : (modSvy f s).err = s.err := rfl
@[simp] theorem modSvy_bst : (modSvy f s).bst = s.bst := rfl
@[simp] theorem modSvy_log : (modSvy f s).log = s.log := rfl
@[simp] theorem modSvy_nv : (modSvy f s).nv = s.nv := rfl
@[simp] theorem modSvy_absent : (modSvy f s).absent = s.absent := rfl
@[simp] theorem modSvy_nonceDraws : (modSvy f s).nonceDraws = s.nonceDraws := rfl
@[simp] theorem modSvy_freeDraws : (modSvy f s).freeDraws = s.freeDraws := rfl
@[simp] theorem modSvy_pending : (modSvy f s).pending = s.pending := rfl
end

section
variable (f : Tri → Tri) (s : State)
@[simp] theorem modTri_variant : (modTri f s).variant = s.variant := rfl
@[simp] theorem modTri_tb : (modTri f s).tb = s.tb := rfl
@[simp] theorem modTri_banks : (modTri f s).banks = s.banks := rfl
@[simp] theorem modTri_ecc : (modTri f s).ecc = s.ecc := rfl
@[simp] theorem modTri_cores : (modTri f s).cores = s.cores := rfl
@[simp] theorem modTri_triads : (modTri f s).triads = s.triads := rfl
@[simp] theorem modTri_tri : (modTri f s).tri = f s.tri := rfl
@[simp] theorem modTri_scn : (modTri f s).scn = s.scn := rfl
@[simp] theorem modTri_parts : (modTri f s).parts = s.parts := rfl
@[simp] theorem modTri_nvs : (modTri f s).nvs = s.nvs := rfl
@[simp] theorem modTri_pim : (modTri f s).pim = s.pim := rfl
@[simp] theorem modTri_olc : (modTri f s).olc = s.olc := rfl
@[simp] theorem modTri_svy : (modTri f s).svy = s.svy := rfl
@[simp] theorem modTri_dio : (modTri f s).dio = s.dio := rfl
@[simp] theorem modTri_saf : (modTri f s).saf = s.saf := rfl
@[simp] theorem modTri_ub : (modTri f s).ub = s.ub := rfl
@[simp] theorem modTri_can : (modTri f s).can = s.can := rfl
@[simp] theorem modTri_hst : (modTri f s).hst = s.hst := rfl
@[simp] theorem modTri_rck : (modTri f s).rck = s.rck := rfl
@[simp] theorem modTri_clk : (modTri f s).clk = s.clk := rfl
@[simp] theorem modTri_crc : (modTri f s).crc = s.crc := rfl
@[simp] theorem modTri_crcCap : (modTri f s).crcCap = s.crcCap := rfl
@[simp] theorem modTri_err : (modTri f s).err = s.err := rfl
@[simp] theorem modTri_bst : (modTri f s).bst = s.bst := rfl
@[simp] theorem modTri_log : (modTri f s).log = s.log := rfl
@[simp] theorem modTri_nv : (modTri f s).nv = s.nv := rfl
@[simp] theorem modTri_absent : (modTri f s).absent = s.absent := rfl
@[simp] theorem modTri_nonceDraws : (modTri f s).nonceDraws = s.nonceDraws := rfl
@[simp] theorem modTri_freeDraws : (modTri f s).freeDraws = s.freeDraws := rfl
@[simp] theorem modTri_pending : (modTri f s).pending = s.pending := rfl
end

section
variable (f : Bst → Bst) (s : State)
@[simp] theorem modBst_variant : (modBst f s).variant = s.variant := rfl
@[simp] theorem modBst_tb : (modBst f s).tb = s.tb := rfl
@[simp] theorem modBst_banks : (modBst f s).banks = s.banks := rfl
@[simp] theorem modBst_ecc : (modBst f s).ecc = s.ecc := rfl
@[simp] theorem modBst_cores : (modBst f s).cores = s.cores := rfl
@[simp] theorem modBst_triads : (modBst f s).triads = s.triads := rfl
@[simp] theorem modBst_tri : (modBst f s).tri = s.tri := rfl
@[simp] theorem modBst_scn : (modBst f s).scn = s.scn := rfl
@[simp] theorem modBst_parts : (modBst f s).parts = s.parts := rfl
@[simp] theorem modBst_nvs : (modBst f s).nvs = s.nvs := rfl
@[simp] theorem modBst_pim : (modBst f s).pim = s.pim := rfl
@[simp] theorem modBst_olc : (modBst f s).olc = s.olc := rfl
@[simp] theorem modBst_svy : (modBst f s).svy = s.svy := rfl
@[simp] theorem modBst_dio : (modBst f s).dio = s.dio := rfl
@[simp] theorem modBst_saf : (modBst f s).saf = s.saf := rfl
@[simp] theorem modBst_ub : (modBst f s).ub = s.ub := rfl
@[simp] theorem modBst_can : (modBst f s).can = s.can := rfl
@[simp] theorem modBst_hst : (modBst f s).hst = s.hst := rfl
@[simp] theorem modBst_rck : (modBst f s).rck = s.rck := rfl
@[simp] theorem modBst_clk : (modBst f s).clk = s.clk := rfl
@[simp] theorem modBst_crc : (modBst f s).crc = s.crc := rfl
@[simp] theorem modBst_crcCap : (modBst f s).crcCap = s.crcCap := rfl
@[simp] theorem modBst_err : (modBst f s).err = s.err := rfl
@[simp] theorem modBst_bst : (modBst f s).bst = f s.bst := rfl
@[simp] theorem modBst_log : (modBst f s).log = s.log := rfl
@[simp] theorem modBst_nv : (modBst f s).nv = s.nv := rfl
@[simp] theorem modBst_absent : (modBst f s).absent = s.absent := rfl
@[simp] theorem modBst_nonceDraws : (modBst f s).nonceDraws = s.nonceDraws := rfl
@[simp] theorem modBst_freeDraws : (modBst f s).freeDraws = s.freeDraws := rfl
@[simp] theorem modBst_pending : (modBst f s).pending = s.pending := rfl
end

section
variable (f : Log → Log) (s : State)
@[simp] theorem modLog_variant : (modLog f s).variant = s.variant := rfl
@[simp] theorem modLog_tb : (modLog f s).tb = s.tb := rfl
@[simp] theorem modLog_banks : (modLog f s).banks = s.banks := rfl
@[simp] theorem modLog_ecc : (modLog f s).ecc = s.ecc := rfl
@[simp] theorem modLog_cores : (modLog f s).cores = s.cores := rfl
@[simp] theorem modLog_triads : (modLog f s).triads = s.triads := rfl
@[simp] theorem modLog_tri : (modLog f s).tri = s.tri := rfl
@[simp] theorem modLog_scn : (modLog f s).scn = s.scn := rfl
@[simp] theorem modLog_parts : (modLog f s).parts = s.parts := rfl
@[simp] theorem modLog_nvs : (modLog f s).nvs = s.nvs := rfl
@[simp] theorem modLog_pim : (modLog f s).pim = s.pim := rfl
@[simp] theorem modLog_olc : (modLog f s).olc = s.olc := rfl
@[simp] theorem modLog_svy : (modLog f s).svy = s.svy := rfl
@[simp] theorem modLog_dio : (modLog f s).dio = s.dio := rfl
@[simp] theorem modLog_saf : (modLog f s).saf = s.saf := rfl
@[simp] theorem modLog_ub : (modLog f s).ub = s.ub := rfl
@[simp] theorem modLog_can : (modLog f s).can = s.can := rfl
@[simp] theorem modLog_hst : (modLog f s).hst = s.hst := rfl
@[simp] theorem modLog_rck : (modLog f s).rck = s.rck := rfl
@[simp] theorem modLog_clk : (modLog f s).clk = s.clk := rfl
@[simp] theorem modLog_crc : (modLog f s).crc = s.crc := rfl
@[simp] theorem modLog_crcCap : (modLog f s).crcCap = s.crcCap := rfl
@[simp] theorem modLog_err : (modLog f s).err = s.err := rfl
@[simp] theorem modLog_bst : (modLog f s).bst = s.bst := rfl
@[simp] theorem modLog_log : (modLog f s).log = f s.log := rfl
@[simp] theorem modLog_nv : (modLog f s).nv = s.nv := rfl
@[simp] theorem modLog_absent : (modLog f s).absent = s.absent := rfl
@[simp] theorem modLog_nonceDraws : (modLog f s).nonceDraws = s.nonceDraws := rfl
@[simp] theorem modLog_freeDraws : (modLog f s).freeDraws = s.freeDraws := rfl
@[simp] theorem modLog_pending : (modLog f s).pending = s.pending := rfl
end

section
variable (f : Olc → Olc) (s : State)
@[simp] theorem modOlc_variant : (modOlc f s).variant = s.variant := rfl
@[simp] theorem modOlc_tb : (modOlc f s).tb = s.tb := rfl
@[simp] theorem modOlc_banks : (modOlc f s).banks = s.banks := rfl
@[simp] theorem modOlc_ecc : (modOlc f s).ecc = s.ecc := rfl
@[simp] theorem modOlc_cores : (modOlc f s).cores = s.cores := rfl
@[simp] theorem modOlc_triads : (modOlc f s).triads = s.triads := rfl
@[simp] theorem modOlc_tri : (modOlc f s).tri = s.tri := rfl
@[simp] theorem modOlc_scn : (modOlc f s).scn = s.scn := rfl
@[simp] theorem modOlc_parts : (modOlc f s).parts = s.parts := rfl
@[simp] theorem modOlc_nvs : (modOlc f s).nvs = s.nvs := rfl
@[simp] theorem modOlc_pim : (modOlc f s).pim = s.pim := rfl
@[simp] theorem modOlc_olc : (modOlc f s).olc = f s.olc := rfl
@[simp] theorem modOlc_svy : (modOlc f s).svy = s.svy := rfl
@[simp] theorem modOlc_dio : (modOlc f s).dio = s.dio := rfl
@[simp] theorem modOlc_saf : (modOlc f s).saf = s.saf := rfl
@[simp] theorem modOlc_ub : (modOlc f s).ub = s.ub := rfl
@[simp] theorem modOlc_can : (modOlc f s).can = s.can := rfl
@[simp] theorem modOlc_hst : (modOlc f s).hst = s.hst := rfl
@[simp] theorem modOlc_rck : (modOlc f s).rck = s.rck := rfl
@[simp] theorem modOlc_clk : (modOlc f s).clk = s.clk := rfl
@[simp] theorem modOlc_crc : (modOlc f s).crc = s.crc := rfl
@[simp] theorem modOlc_crcCap : (modOlc f s).crcCap = s.crcCap := rfl
@[simp] theorem modOlc_err : (modOlc f s).err = s.err := rfl
@[simp] theorem modOlc_bst : (modOlc f s).bst = s.bst := rfl
@[simp] theorem modOlc_log : (modOlc f s).log = s.log := rfl
@[simp] theorem modOlc_nv : (modOlc f s).nv = s.nv := rfl
@[simp] theorem modOlc_absent : (modOlc f s).absent = s.absent := rfl
@[simp] theorem modOlc_nonceDraws : (modOlc f s).nonceDraws = s.nonceDraws := rfl
@[simp] theorem modOlc_freeDraws : (modOlc f s).freeDraws = s.freeDraws := rfl
@[simp] theorem modOlc_pending : (modOlc f s).pending = s.pending := rfl
end

end Sys2Proof.Machine
end

