-- ==== Sys2Proof/Machine/Leds.lean ====
section
/-!
DEFINITION. What the LEDs of the front panel show (R535), as functions of the state. Where two columns of the table apply,
the one further right holds, and where none applies the LED is a free value: choices of the model (log entry 109).
-/
namespace Sys2Proof.Machine

open Sys2Proof

/-- A LED of the front panel. -/
inductive Led where
  | pwr | mode | triad | ub (b : Fin 2) | can | host | twin | comm
  deriving DecidableEq, Repr

/-- The colour of a LED. -/
inductive LedColour where
  | off | green | amber | red
  deriving DecidableEq, Repr

/-- What a LED shows: a colour, steady or flashing at 1 Hz. -/
structure LedShow where
  colour : LedColour
  flash : Bool
  deriving DecidableEq, Repr

/-- A steady colour. -/
def LedColour.steady (c : LedColour) : LedShow := ⟨c, false⟩

/-- A flashing colour. -/
def LedColour.flashing (c : LedColour) : LedShow := ⟨c, true⟩

/-- What a LED shows where the table has no column for the state: a free value. -/
def ledOpen (k : Nat) : LedShow :=
  let w := Config.ledOpen k
  ⟨match w.toNat / 2 with
    | 0 => .off
    | 1 => .green
    | 2 => .amber
    | _ => .red, w.getLsbD 0⟩

/-- MODE. -/
def ledMode (s : State) : LedShow := match s.scn.mode with
  | .run => LedColour.green.steady
  | .stop => LedColour.green.flashing
  | .hold => LedColour.amber.steady
  | .start => LedColour.amber.flashing
  | .safe => LedColour.red.steady
  | .shutdown => LedColour.red.flashing

/-- Whether a core is in KENNEL after a failure: not for a re-test or the check of a leash. -/
def kennelled (k : Core) : Bool := k.st = .kennel && (k.ken = .failed || (!k.retest && !k.kenQuick))

/-- TRIAD. -/
def ledTriad (s : State) : LedShow :=
  if (fins 5).any (fun t => s.triads[t].mode = .stopped) then LedColour.red.steady
  else if (fins 5).any (fun t => s.triads[t].mode = .pair) || (fins 16).any (fun c => kennelled s.cores[c]) then
    LedColour.amber.steady
  else if (fins 5).any (fun t => s.triads[t].mode = .triad || s.triads[t].mode = .idle) then LedColour.green.steady
  else LedColour.off.steady

/-- UBA and UBB. -/
def ledUb (s : State) (b : Fin 2) : LedShow :=
  let x := s.ub[b]
  if !hasUb s b || x.st = .off then LedColour.off.steady
  else if (x.jamA && x.jamB) || (!x.stations.isEmpty && x.stations.all (·.lost)) then LedColour.red.steady
  else if x.jamA || x.jamB || x.st = .foreign || x.st = .standby then LedColour.amber.steady
  else if x.st = .keeper then LedColour.green.steady
  else ledOpen b.val

/-- CAN. -/
def ledCan (s : State) : LedShow :=
  let on := (fins 4).filter (fun c => hasCan s c && s.can[c].st ≠ .off)
  if on.isEmpty then LedColour.off.steady
  else if on.any (fun c => s.can[c].st = .busOff) then LedColour.red.steady
  else if s.clk.srcIo || on.any (fun c => s.can[c].st = .passive) then LedColour.amber.steady
  else if on.all (fun c => s.can[c].st = .active) then LedColour.green.steady
  else ledOpen 2

/-- HOST. -/
def ledHost (s : State) : LedShow :=
  if !s.hst.link then LedColour.off.steady
  else if (fins 8).any (fun r => s.hst.rings[r].st = .error) then LedColour.amber.steady
  else LedColour.green.steady

/-- TWIN. -/
def ledTwin (s : State) : LedShow :=
  if !s.rck.twinEnAct then LedColour.off.steady
  else if s.rck.dualSeen then LedColour.red.steady
  else match s.rck.role with
  | .active => if s.rck.peerEqual then LedColour.green.steady else LedColour.amber.steady
  | .standby => if s.rck.equal then LedColour.green.flashing else LedColour.amber.steady
  | .single => ledOpen 3

/-- COMM. -/
def ledComm (s : State) : LedShow :=
  if s.scn.mode = .run && !s.pim.forces.isEmpty then LedColour.red.steady
  else if s.scn.commEn then LedColour.amber.steady
  else LedColour.off.steady

/-- A LED by the table alone. -/
def ledTable (s : State) : Led → LedShow
  | .pwr => if s.bst.ph = .off then LedColour.off.steady else LedColour.green.steady
  | .mode => ledMode s
  | .triad => ledTriad s
  | .ub b => ledUb s b
  | .can => ledCan s
  | .host => ledHost s
  | .twin => ledTwin s
  | .comm => ledComm s

/-- What a LED shows (R535): in START every LED but PWR is amber, and in SHUTDOWN after the test every LED but PWR and MODE
is off. -/
def ledShow (s : State) (l : Led) : LedShow :=
  if l = .pwr then ledTable s l
  else if s.bst.ph = .off then LedColour.off.steady
  else if l = .mode then ledMode s
  else if s.scn.mode = .start then LedColour.amber.steady
  else if s.scn.mode = .shutdown && s.bst.phase = 5#3 then LedColour.off.steady
  else ledTable s l

end Sys2Proof.Machine
end

