-- ==== Sys2Proof/WellFormed.lean ====
section
/-!
DEFINITION. Well-formed commands: operands within what the hardware can carry. A command whose meaning reads an
operand outside these ranges still has a meaning; the statements name this predicate where they need it.
-/
namespace Sys2Proof

open Sys2Proof.Machine

/-- A word-aligned offset within a BAR of 64 KiB (R375). -/
def barWord (ofs : Nat) : Bool := decide (ofs % 4 = 0 ∧ ofs < 65536)

/-- A word-aligned offset of the rack bus: address bits [27:0] (R401). -/
def rackWord (ofs : Nat) : Bool := decide (ofs % 4 = 0 ∧ ofs < 268435456)

/-- A word that the scrubber judges: 64-bit words of a 4 GiB bank, or a table word (R78, R80). -/
def Machine.ScrubTarget.wf : ScrubTarget → Bool
  | .bank ofs => decide (ofs % 8 = 0 ∧ ofs < 4294967296)
  | .table _ => true
  | .staged ofs => decide (ofs % 8 = 0)
  | .slice _ _ => true
  | .image _ _ => true
  | .force _ => true
  | .gaz _ => true
  | .owner _ => true
  | .part _ => true
  | .nonvital _ => true

/-- A Ubuno frame is received in a slot or a minislot (R311). -/
def Machine.UbFrame.wf (f : UbFrame) : Bool := decide (1 ≤ f.place ∧ f.place ≤ 8191)

/-- A CAN frame holds at most 64 bytes (R359). -/
def Machine.CanFrame.wf (f : CanFrame) : Bool := decide (f.data.length ≤ 64)

/-- A rack read returns words (R401, R402). -/
def Machine.RackAnswer.wf : RackAnswer → Bool
  | .data ws => !ws.isEmpty
  | .nack => true

/-- A command whose operands are within their ranges. -/
def Instr.wf : Instr → Bool
  | .powerOn => true
  | .hardwareReset => true
  | .vlInterruption => true
  | .xoStable => true
  | .xoStartTimeout => true
  | .quickCheckEnd _ => true
  | .startSelfTestEnd _ => true
  | .testConditionRetry => true
  | .imageLoadEnd => true
  | .imageCheckEnd => true
  | .keyLoadEnd => true
  | .startEnd _ => true
  | .twinRoleTimeout => true
  | .boundary _ => true
  | .agreeEnd => true
  | .watchdogExpiry => true
  | .budgetExpiry _ => true
  | .nvBudgetExpiry _ => true
  | .creditExpiry _ => true
  | .commitArrival _ _ _ => true
  | .trapReportArrival _ _ _ => true
  | .lagWindowExpiry _ => true
  | .handlerBudgetExpiry _ => true
  | .enableDisagreement _ => true
  | .dynCodeReadbackMismatch _ => true
  | .emitEnd _ => true
  | .heelPassEnd _ => true
  | .pairLimitExpiry _ => true
  | .scrubJudge w => w.wf
  | .kennelTestEnd _ _ => true
  | .quickKennelCheckEnd _ _ => true
  | .kennelRetryDue _ => true
  | .reserveRetestDue _ => true
  | .eventDelivery => true
  | .logUpdate _ _ => true
  | .logHistoryWrite => true
  | .surveyCloseAt => true
  | .surveyResult _ _ index _ => decide (index % 2 = 0 ∧ index < 32768)
  | .surveyLagExpiry _ index => decide (index % 2 = 0 ∧ index < 32768)
  | .olcCheckEnd _ => true
  | .olcVerifyEnd _ => true
  | .olcWaitExpiry => true
  | .olcAcceptDone => true
  | .offPulseVisit => true
  | .offPulseVerdict _ _ => true
  | .outOverload _ => true
  | .outStuckOn _ _ _ => true
  | .sbcOpenLoad _ => true
  | .silenceTimeout _ => true
  | .brakeTestEnergiseTimeout _ => true
  | .brakeTestTimeEnd _ => true
  | .brakeTestDue _ => true
  | .brakeTestOverdue _ => true
  | .feedbackTimeout _ => true
  | .exerciseExpiry => true
  | .busCycleStart _ => true
  | .ubunoFrameReceived _ f => f.wf
  | .ubunoSlotLaunch _ slot => decide (1 ≤ slot ∧ slot ≤ 2047)
  | .dynamicFrameSend _ mini => decide (1 ≤ mini ∧ mini ≤ 8191)
  | .coldstartListenEnd _ => true
  | .coldstartClaimCycleEnd _ _ _ => true
  | .coldstartBackoffEnd _ => true
  | .channelJam _ _ => true
  | .channelOk _ _ => true
  | .stationLost _ station => decide (1 ≤ station ∧ station ≤ 1023)
  | .waypoint _ _ => true
  | .sfpChange _ _ _ => true
  | .canFrameReceived _ f _ => f.wf
  | .canTxStart _ => true
  | .canTxEnd _ _ _ => true
  | .canErrorDetected _ _ _ dTec dRec => decide (dTec ≤ 8 ∧ dRec ≤ 8)
  | .canIntegration _ => true
  | .canBusOffRecovery _ => true
  | .canRequestExpiry _ entry => decide (entry < 256)
  | .hostRequestTimeout => true
  | .rackRead _ r => rackWord r.ofs
  | .rackPartnerRead _ ofs a => rackWord ofs && a.wf
  | .partnerPresent _ => true
  | .partnerAbsent _ => true
  | .partnerStale _ => true
  | .twBndPulse _ => true
  | .twinDualActive => true
  | .twAliveLoss => true
  | .twEmitPulse => true
  | .holdOverEnd => true
  | .monitorWindow _ => true
  | .referenceSwitch => true
  | .stoppedSourceEscape => true
  | .ioFail => true
  | .holdoverExpiry => true
  | .refinLost => true
  | .ppsEdge => true
  | .rsiWindow _ => true
  | .gateClose _ => true
  | .gateForce _ => true
  | .crcDmaEnd _ => true
  | .crcJobPassEnd _ => true
  | .shutdownDrainEnd _ _ => true
  | .shutdownTestEnd _ => true
  | .linkDown => true
  | .functionLevelReset => true
  | .busMasterDisable => true
  | .perst => true
  | .sqTailDoorbell _ _ => true
  | .cqHeadDoorbell _ _ => true
  | .completionDelivery _ => true
  | .ringEnable _ _ => true
  | .ringDisable _ _ => true
  | .absentUnitAccess ofs _ => barWord ofs
  | .unsupportedBar0Access ofs size _ => decide (size ≠ 4 ∨ ofs % 4 ≠ 0)
  | .registerWrite _ ofs _ => barWord ofs
  | .statusClear ofs _ => barWord ofs
  | .dynFaultClear _ => true
  | .outputLatchClear ofs _ => barWord ofs
  | .canRecover _ => true
  | .canClrMax _ => true
  | .xoReturnRequest => true
  | .gateRequest _ => true
  | .gateWithdraw _ => true
  | .gateReopen _ => true
  | .crcInit _ => true
  | .crcGo _ => true
  | .crcCheck _ => true
  | .crcData _ _ => true
  | .crcDataB _ _ => true
  | .solveMaxReset _ => true
  | .roundMaxReset => true
  | .identify _ _ => true
  | .runRequest _ _ => true
  | .holdRequest _ _ => true
  | .stopRequest _ _ => true
  | .shutdownRequest _ _ => true
  | .step _ _ => true
  | .resetArm _ _ => true
  | .resetCommit _ _ => true
  | .twinHandover _ _ => true
  | .nvRestart _ _ => true
  | .keyStore _ _ => true
  | .hreqSet _ _ => true
  | .hreqSetDiag _ _ => true
  | .logRead _ _ => true
  | .olcBegin _ _ => true
  | .olcData _ _ => true
  | .olcEnd _ _ => true
  | .olcActivate _ _ => true
  | .olcDiscard _ _ => true
  | .olcRollback _ _ => true
  | .olcAccept _ _ => true
  | .olcQuery _ _ => true
  | .forceSet _ _ => true
  | .forceClear _ _ => true
  | .forceList _ _ => true
  | .brkTestNow _ _ => true
  | .outExercise _ _ => true
  | .exerciseStop _ _ => true
  | .nvMsg _ _ => true
  | .illegalInstruction _ _ => true
  | .add _ _ _ _ => true
  | .sub _ _ _ _ => true
  | .adds _ _ _ _ => true
  | .subs _ _ _ _ => true
  | .addus _ _ _ _ => true
  | .subus _ _ _ _ => true
  | .mul _ _ _ _ => true
  | .muls _ _ _ _ => true
  | .mulh _ _ _ _ => true
  | .div _ _ _ _ => true
  | .divu _ _ _ _ => true
  | .rem _ _ _ _ => true
  | .remu _ _ _ _ => true
  | .min _ _ _ _ => true
  | .max _ _ _ _ => true
  | .minu _ _ _ _ => true
  | .maxu _ _ _ _ => true
  | .abss _ _ _ => true
  | .and _ _ _ _ => true
  | .or _ _ _ _ => true
  | .xor _ _ _ _ => true
  | .andn _ _ _ _ => true
  | .orn _ _ _ _ => true
  | .bnot _ _ _ => true
  | .sll _ _ _ _ => true
  | .srl _ _ _ _ => true
  | .sra _ _ _ _ => true
  | .slli _ _ _ _ => true
  | .srli _ _ _ _ => true
  | .srai _ _ _ _ => true
  | .seq _ _ _ _ => true
  | .sne _ _ _ _ => true
  | .slt _ _ _ _ => true
  | .sltu _ _ _ _ => true
  | .sle _ _ _ _ => true
  | .sleu _ _ _ _ => true
  | .addi _ _ _ _ => true
  | .addis _ _ _ _ => true
  | .andi _ _ _ _ => true
  | .ori _ _ _ _ => true
  | .xori _ _ _ _ => true
  | .lui _ _ _ => true
  | .slti _ _ _ _ => true
  | .sltiu _ _ _ _ => true
  | .beq _ _ _ _ => true
  | .bne _ _ _ _ => true
  | .blt _ _ _ _ => true
  | .bge _ _ _ _ => true
  | .bltu _ _ _ _ => true
  | .bgeu _ _ _ _ => true
  | .lw _ _ _ _ => true
  | .lh _ _ _ _ => true
  | .lhu _ _ _ _ => true
  | .lb _ _ _ _ => true
  | .lbu _ _ _ _ => true
  | .lwi _ _ _ => true
  | .sw _ _ _ _ => true
  | .sh _ _ _ _ => true
  | .sb _ _ _ _ => true
  | .swi _ _ _ => true
  | .jmp _ _ => true
  | .call _ _ _ => true
  | .callr _ _ _ => true
  | .jmpr _ _ => true
  | .ret _ => true
  | .ldw _ _ _ => true
  | .stw _ _ _ => true
  | .ldb _ _ _ => true
  | .ldbn _ _ _ => true
  | .stb _ _ _ => true
  | .stbn _ _ _ => true
  | .ldbx _ _ _ => true
  | .stbx _ _ _ => true
  | .ldwx _ _ _ => true
  | .stwx _ _ _ => true
  | .ldq _ _ _ => true
  | .ldwq _ _ _ => true
  | .rdb _ _ _ => true
  | .rdt _ _ _ => true
  | .svq _ _ _ => true
  | .svw _ _ _ _ => true
  | .rde _ _ => true
  | .retn _ => true
  | .enter _ _ => true
  | .assert _ _ => true
  | .depth _ _ => true
  | .rdib _ _ => true
  | .inputFilterSample _ => true
  | .chipBoundary => true
  | .outputTerminalChange _ _ _ _ => true
  | .linkUp => true
  | .hostDmaEnd _ _ _ bytes _ => decide (bytes.length ≤ 65536)
  | .sealedStoreWriteEnd => true
  | .ioEdgesReturn => true
  | .refinLock _ => true
  | .ppsTimeout => true
  | .histogramSample _ => true

end Sys2Proof
end

