-- ==== Sys2Proof/Tests/Slice0.lean ====
section
/-!
SUPPORT. Tests: ill-formed operands that WellFormed refuses, instruction words written out from R106 to R110, one small
step here and there, and for each statement that has hypotheses concrete states and operands that meet them, clause
by clause (the theorems named after the statements).
-/
namespace Sys2Proof.Tests

open Sys2Proof Sys2Proof.Machine

set_option Elab.async false

/-! ### WellFormed refuses -/

theorem test_wf_scrub_target : (Instr.scrubJudge (.bank 4)).wf = false ∧ (Instr.scrubJudge (.bank 0x100000000)).wf = false ∧
    (Instr.scrubJudge (.staged 12)).wf = false ∧ (Instr.scrubJudge (.bank 8)).wf = true := by decide

theorem test_wf_survey_index : (Instr.surveyResult 0 0 3 true).wf = false ∧ (Instr.surveyLagExpiry 0 32768).wf = false ∧
    (Instr.surveyResult 0 0 32766 true).wf = true := by decide

theorem test_wf_ubuno_places : (Instr.ubunoSlotLaunch 0 0).wf = false ∧ (Instr.ubunoSlotLaunch 0 2048).wf = false ∧
    (Instr.dynamicFrameSend 0 0).wf = false ∧ (Instr.stationLost 0 1024).wf = false ∧
    (Instr.stationLost 0 1023).wf = true := by decide

theorem test_wf_ubuno_frame : (Instr.ubunoFrameReceived 0 ⟨false, 0, true, 0, []⟩).wf = false ∧
    (Instr.ubunoFrameReceived 0 ⟨false, 0, true, 8192, []⟩).wf = false ∧
    (Instr.ubunoFrameReceived 0 ⟨false, 0, true, 8191, []⟩).wf = true := by decide

theorem test_wf_can : (Instr.canFrameReceived 0 ⟨0, 15, false, false, List.replicate 65 0⟩ 0).wf = false ∧
    (Instr.canErrorDetected 0 true false 9 0).wf = false ∧ (Instr.canRequestExpiry 0 256).wf = false ∧
    (Instr.canErrorDetected 0 true false 8 0).wf = true := by decide

theorem test_wf_rack : (Instr.rackRead 0 ⟨2, 0, true⟩).wf = false ∧ (Instr.rackPartnerRead 1 0 (.data [])).wf = false ∧
    (Instr.rackRead 0 ⟨0x10000000, 0, true⟩).wf = false ∧ (Instr.rackPartnerRead 1 0 .nack).wf = true := by decide

theorem test_wf_bar : (Instr.registerWrite false 0x10000 0).wf = false ∧ (Instr.statusClear 0x1101 0).wf = false ∧
    (Instr.absentUnitAccess 2 none).wf = false ∧ (Instr.outputLatchClear 0x10000 0).wf = false ∧
    (Instr.unsupportedBar0Access 0 4 true).wf = false ∧ (Instr.unsupportedBar0Access 0 8 true).wf = true ∧
    (Instr.registerWrite false 0xFFFC 0).wf = true := by decide

/-! ### Instruction words, written out from the formats of R106 and the rows of R107 to R110 -/

theorem test_word_add : decodeItrel 7 0x00000001 = .add 7 0 0 0 := by decide +kernel
theorem test_word_addi : decodeItrel 0 0b00001000001000100000000000000101 = .addi 0 1 2 5 := by decide +kernel
theorem test_word_beq : decodeItrel 0 0b00101000001000101111111111111111 = .beq 0 1 2 0xFFFF := by decide +kernel
theorem test_word_call : decodeItrel 0 0b10001000110000000001001000110100 = .call 0 3 0x1234 := by decide +kernel
theorem test_word_stw : decodeItrel 0 0b10100001001000000000000000010000 = .stw 0 4 0x10 := by decide +kernel
theorem test_word_stb : decodeItrel 0 0b11100010100100100011010001010110 = .stb 0 5 0x123456 := by decide +kernel
theorem test_word_stbn : decodeItrel 0 0xFFFFFFFF = .stbn 0 31 0x7FFFFF := by decide +kernel
theorem test_word_zero_illegal : decodeItrel 3 0x00000000 = .illegalInstruction 3 0 := by decide +kernel
theorem test_word_ret_with_ga_illegal : decodeItrel 0 0x04010001 = .illegalInstruction 0 0x04010001 := by decide +kernel

/-! ### A small module at work -/

/-- P0 at the start of the banks: 1 MiB, 1,024 words of program. -/
def p0 : PartDesc :=
  { baseMib := 0, sizeMib := 1, progWords := 1024, entry := 0, rootIb := 0x40001000#32, nmiEntry := 0, isolated := false,
    svyUse := false, svyOfs := 0, svyLen := 0, lostEntry := 0, lostInst := 0#32, jobs := [], canAreas := [] }

/-- N0 for C15. -/
def n0 : NvDesc :=
  { core := 15, progWords := 1024, entry := 0, rootIb := 0x40001000#32, canAreas := [], hostOfs := 0, hostCap := 0 }

/-- The Gazetteer entry of a signal of P0. -/
def entry (path : String) (g : Sig) : GazEntry :=
  { path := path, sig := some g, hash := 1#32, version := 1, inst := false, library := false, chart := false, part := 0,
    head := 0, ofs := 0, bytes := 4, safe := 0#32, subst := .safe, vitalOut := false }

/-- P0 owns output word 0x20000; N0 runs beside it. -/
def image : Image :=
  { Image.blank with
    parts := #v[some ⟨p0, [], [], [], []⟩, none, none, none, none]
    nvs := #v[some ⟨n0, 1, [], [], []⟩, none, none, none, none, none, none, none]
    gaz := [entry "a" ⟨true, 0x20000⟩, entry "b" ⟨true, 0x50000⟩, entry "c" ⟨false, 0⟩]
    owners := [⟨.signal ⟨true, 0x20000⟩, 0⟩] }

/-- RUN in cycle 5: T0 carries P0 on C0, C1 and C2, which solve; C15 runs N0 with 1 MiB of bank A at 16 MiB. -/
def live : State :=
  { State.reset with
    tb := 8002000
    scn := { Scn.init with mode := .run, phase := 2, cycle := 5, bTb := 8000000, nextB := 10000000, agreed := true,
                           agreeTb := 8001000, imageValid := true }
    bst := { Bst.init with ph := .over }
    olc := Olc.init.setActive (some image)
    triads := vset State.reset.triads 0
      { Triad.init (some 0) with mode := .triad, cores := #v[some 0, some 1, some 2] }
    parts := vset State.reset.parts 0 { Part.init with st := .solving, entered := true }
    nvs := vset State.reset.nvs 0 { NvPart.init with st := .running, budgetAct := 10 }
    tri := { Tri.init with nvqAct := vset Tri.init.nvqAct 15 0x10010010#32 }
    cores := vupd (vupd (vupd (vupd State.reset.cores 0 (fun k => { k with run := .running, ib := 0x40001000#32 })) 1
      (fun k => { k with run := .running, ib := 0x40001000#32 })) 2
      (fun k => { k with run := .running, ib := 0x40001000#32 })) 15
      (fun k => { k with st := .unleashed, run := .running, nv := some 0, ib := 0x40001000#32 }) }

/-- What surrounds C0 there. -/
def x0 : CoreCtx := { who := .vital 0 0 0, bank := 0, base := 0, size := 1048576, prog := 1024 }

/-- What surrounds C15 there. -/
def x15 : CoreCtx := { who := .nonvital 0, bank := 0, base := 16777216, size := 1048576, prog := 1024 }

/-- Some registers of a core. -/
def withRegs (c : CoreId) (l : List (Reg × Word)) (s : State) : State :=
  modCore c (fun k => { k with g := l.foldl (fun g x => vset g x.1 x.2) k.g }) s

theorem test_live_cores : coreCtx live 0 = some x0 ∧ coreCtx live 15 = some x15 ∧
    live.cores[(0 : CoreId)].pc.toNat < x0.prog ∧ live.cores[(15 : CoreId)].pc.toNat < x15.prog := by decide +kernel

/-- What holds after a command that answers a next state. -/
def after {α : Type} (i : Instr) (s : State) (f : State → α) : Option α := match exec i s with
  | .next t => some (f t)
  | _ => none

/-! ### Witnesses: Itrel -/

theorem test_witness_InstructionWords : encode (.add 0 1 2 3) = some 0x00221801#32 ∧
    ∀ c v, Instr.add 0 1 2 3 ≠ .illegalInstruction c v := ⟨by decide +kernel, by simp⟩

/-- RegisterOperations, Immediates, SignalLoads, SystemReads: a vital core and a non-vital one. -/
theorem test_witness_cores : Runs live 0 x0 ∧ x0.vital = true ∧ Runs live 15 x15 ∧ x15.vital = false ∧
    (∃ n l p, x0.who = .vital n l p) ∧ x15.who = .nonvital 0 ∧ (0 : NvId) ∉ live.cores[(15 : CoreId)].nvIdle := by
  simp only [Runs]
  exact ⟨by decide +kernel, by decide, by decide +kernel, by decide, ⟨0, 0, 0, rfl⟩, rfl, by decide +kernel⟩

/-- A step of exec in that module: G1 gets 7, and G0 stays 0. -/
theorem test_addi : after (.addi 0 1 0 7) live (fun t => t.cores[(0 : CoreId)].reg 1) = some 7 := by decide +kernel
theorem test_addi_g0 : after (.addi 0 0 0 7) live (fun t => t.cores[(0 : CoreId)].reg 0) = some 0 := by decide +kernel

/-- −2^31 by −1, and by 1. -/
theorem test_witness_SaturationAndDivision :
    let s := withRegs 0 [(1, 0x80000000), (2, 0xFFFFFFFF), (3, 1)] live
    Runs s 0 x0 ∧ s.cores[(0 : CoreId)].reg 2 ≠ 0 ∧ s.cores[(0 : CoreId)].reg 3 ≠ 0 := by
  simp only [Runs]; decide +kernel

/-- Conditions that hold and fail, and targets at the last word of 22 bits and one above; an ASSERT that passes. -/
theorem test_witness_BranchesAndJumps :
    let s := withRegs 0 [(1, 0x3FFFFF), (2, 0x400000), (3, 0xFFFFFFFF)] live
    let k := s.cores[(0 : CoreId)]
    Runs s 0 x0 ∧ k.reg 1 = k.reg 1 ∧ k.reg 1 ≠ k.reg 2 ∧ (k.reg 3).toInt < (k.reg 1).toInt ∧
      (k.reg 1).toNat < (k.reg 3).toNat ∧ k.reg 1 < 0x400000#32 ∧ ¬ k.reg 2 < 0x400000#32 ∧ x0.vital = true ∧
      k.reg 1 ≠ 0 := by
  simp only [Runs]; decide +kernel

/-- A call stack of `n` entries on C0. -/
def stacked (n : Nat) (s : State) : State :=
  modCore 0 (fun k => { k with stack := List.replicate n (5#22, 0x40001000#32) }) s

/-- 63 entries and a last header that fits; 64 entries; a header that does not fit, and one misaligned; ENTER that finds
the word of G0 at IB. -/
theorem test_witness_Calls :
    let s := withRegs 0 [(1, 0x400FFFF0), (2, 0x3FFFFF), (3, 0x400000), (4, 0x40100000), (5, 0x40000008)] (stacked 63 live)
    let u := stacked 64 live
    let k := s.cores[(0 : CoreId)]
    Runs s 0 x0 ∧ k.ib.toNat % 4 = 0 ∧ Loadable s 0 x0 k.ib.toNat ∧
      bankWord s x0.bank (x0.base + (k.ib.toNat - 0x40000000)) = k.reg 0 ∧
      k.stack.length < 64 ∧ (k.reg 1).toNat % 16 = 0 ∧ 0x40000000 ≤ (k.reg 1).toNat ∧
      (k.reg 1).toNat + 16 ≤ 0x40000000 + x0.size ∧ k.reg 2 < 0x400000#32 ∧ ¬ k.reg 3 < 0x400000#32 ∧
      (k.reg 4).toNat + 16 > 0x40000000 + x0.size ∧ (k.reg 5).toNat % 16 ≠ 0 ∧
      Runs u 0 x0 ∧ 64 ≤ u.cores[(0 : CoreId)].stack.length ∧ u.cores[(0 : CoreId)].reg 3 < 0x400000#32 := by
  simp only [Runs, Loadable, InRegion]; decide +kernel

/-- One entry on the stack, none, a non-vital core with none; a core that has ended. -/
theorem test_witness_Returns :
    let s := stacked 1 live
    live.cores[(3 : CoreId)].run ≠ .running ∧
    Runs s 0 x0 ∧ s.cores[(0 : CoreId)].stack = [(5#22, 0x40001000#32)] ∧ Runs live 0 x0 ∧
      live.cores[(0 : CoreId)].stack = [] ∧ x0.vital = true ∧ Runs live 15 x15 ∧ live.cores[(15 : CoreId)].stack = [] ∧
      x15.who = .nonvital 0 ∧ (0 : NvId) ∉ live.cores[(15 : CoreId)].nvIdle := by
  simp only [Runs]; decide +kernel

/-- C0 in a handler. -/
theorem test_witness_PartitionEntry_handler :
    let s := modCore 0 (fun k => { k with nmiSave := some (9#22, 0x40001000#32, Vector.replicate 32 0#32) }) live
    Runs s 0 x0 ∧ x0.who = .vital 0 0 0 ∧
      s.cores[(0 : CoreId)].nmiSave = some (9#22, 0x40001000#32, Vector.replicate 32 0#32) := by
  simp only [Runs]; decide +kernel

/-- The last word of SRAM, and the first and the last of the region, of a vital core and a non-vital one. -/
theorem test_witness_Loads :
    let s := withRegs 15 [(1, 0x3FFFC), (2, 0x40000000), (3, 0x400FFFFC)] (withRegs 0 [(1, 0x3FFFC), (2, 0x40000000),
      (3, 0x400FFFFC)] live)
    ∀ y ∈ [((0 : CoreId), x0), (15, x15)], Runs s y.1 y.2 ∧ formAddr s.cores[y.1] none 0 % 4 = 0 ∧
      Loadable s y.1 y.2 (formAddr s.cores[y.1] none 0) ∧
      ∀ a ∈ [(1 : Reg), 2, 3], formAddr s.cores[y.1] (some a) 0 % 4 = 0 ∧
        Loadable s y.1 y.2 (formAddr s.cores[y.1] (some a) 0) := by
  simp only [Runs, Loadable, InRegion]; decide +kernel

/-- SW at the first and the last word of SRAM; SWI just after the header at IB 0. -/
theorem test_witness_MemoryStores_sram :
    let s := withRegs 0 [(1, 0x3FFFC)] (modCore 0 (fun k => { k with ib := 0x3FFE0#32 }) live)
    Runs s 0 x0 ∧ SMap.wf 0#8 s.cores[(0 : CoreId)].sram = true ∧
      formAddr s.cores[(0 : CoreId)] (some 1) 0 = 0x3FFFC ∧ formAddr s.cores[(0 : CoreId)] (some 0) 0 = 0 ∧
      formAddr s.cores[(0 : CoreId)] none 16 % 4 = 0 ∧ formAddr s.cores[(0 : CoreId)] none 16 < 0x40000 := by
  simp only [Runs]; decide +kernel

/-- SW at the first word after the program and at the last of the region; SWI just after the header. -/
theorem test_witness_MemoryStores_region :
    let s := withRegs 0 [(1, 0x40001000), (2, 0x400FFFFC)] live
    Runs s 0 x0 ∧ x0.vital = true ∧ SMap.wf 0#8 s.banks[x0.bank] = true ∧
      (∀ p ∈ [formAddr s.cores[(0 : CoreId)] (some 1) 0, formAddr s.cores[(0 : CoreId)] (some 2) 0,
              formAddr s.cores[(0 : CoreId)] none 16],
        p % 4 = 0 ∧ 0x40000000 ≤ p ∧ p < 0x80000000 ∧ p - 0x40000000 < x0.size ∧ 4 * x0.prog ≤ p - 0x40000000) := by
  simp only [Runs]; decide +kernel

/-- The first store to a page, with the limit not reached, and one to a page in use with the limit reached. -/
theorem test_witness_QuotaStores :
    let s := withRegs 15 [(1, 0x40001000), (2, 0x400FFFFC)] live
    let u := { s with tri := { s.tri with nvPages := vset s.tri.nvPages 15 (List.range 256) } }
    let p := fun (t : State) (a : Reg) => formAddr t.cores[(15 : CoreId)] (some a) 0
    Runs s 15 x15 ∧ Runs u 15 x15 ∧ x15.vital = false ∧ SMap.wf 0#8 s.banks[x15.bank] = true ∧
      (∀ a ∈ [(1 : Reg), 2], partAt s (x15.base + (p s a - 0x40000000)) = none ∧ p s a % 4 = 0 ∧ 0x40000000 ≤ p s a ∧
        InRegion s 15 x15 (p s a - 0x40000000) ∧ 4 * x15.prog ≤ p s a - 0x40000000) ∧
      s.tri.nvPages[(15 : CoreId)].length < fld s.tri.nvqAct[(15 : CoreId)] 16 12 * 256 ∧
      ¬ u.tri.nvPages[(15 : CoreId)].length < fld u.tri.nvqAct[(15 : CoreId)] 16 12 * 256 ∧
      (p u 2 - 0x40000000) / 4096 ∈ u.tri.nvPages[(15 : CoreId)] := by
  simp only [Runs, InRegion]; decide +kernel

/-- CAN_0's entry 0, and the last word of the mirror. -/
theorem test_witness_CommittedStores_devices :
    let s := withRegs 0 [(1, 0xC2000000), (2, 0xC380BFFC)] live
    Runs s 0 x0 ∧ x0.vital = true ∧
      ∀ a ∈ [(1 : Reg), 2], formAddr s.cores[(0 : CoreId)] (some a) 0 % 4 = 0 ∧
        0xC0000000 ≤ formAddr s.cores[(0 : CoreId)] (some a) 0 ∧
        (devOf s (formAddr s.cores[(0 : CoreId)] (some a) 0 - 0xC0000000)).isSome = true := by
  simp only [Runs]; decide +kernel

/-- ALIGN; ADDR_FAULT one word above SRAM, one above the region and above the mirror; the last program word; the last
word of the header. -/
theorem test_witness_AccessTraps :
    let s := withRegs 0 [(1, 0x3), (2, 0x40000), (3, 0x40100000), (4, 0xC380C000), (5, 0x40000FFC)] live
    let p := fun (a : Reg) => formAddr s.cores[(0 : CoreId)] (some a) 0
    let h := formAddr s.cores[(0 : CoreId)] none 12
    Runs s 0 x0 ∧ x0.vital = true ∧ p 1 % 2 ≠ 0 ∧ p 1 % 4 ≠ 0 ∧
      (∀ a ∈ [(2 : Reg), 3, 4], p a % 4 = 0 ∧ ¬ Loadable s 0 x0 (p a) ∧ 0x40000 ≤ p a ∧
        ¬ (0x40000000 ≤ p a ∧ p a < 0x80000000 ∧ p a - 0x40000000 < x0.size) ∧
        ¬ (0xC0000000 ≤ p a ∧ (devOf s (p a - 0xC0000000)).isSome = true)) ∧
      p 5 % 4 = 0 ∧ 0x40000000 ≤ p 5 ∧ p 5 - 0x40000000 < 4 * x0.prog ∧
      h % 4 = 0 ∧ 0x40000000 ≤ h ∧ h - 0x40000000 < x0.size ∧ 4 * x0.prog ≤ h - 0x40000000 := by
  simp only [Runs, Loadable, InRegion]; decide +kernel

/-- The last addresses of the two signal spaces. -/
theorem test_witness_SignalLoads :
    let s := withRegs 0 [(1, 5242879), (2, 524287)] live
    Runs s 0 x0 ∧ (0x4FFFFF#23).toNat < 5242880 ∧ (s.cores[(0 : CoreId)].reg 1).toNat < 5242880 ∧
      (s.cores[(0 : CoreId)].reg 2).toNat < 524288 := by
  simp only [Runs]; decide +kernel

/-- A force that acts, and for each area a signal at an end of it on which none does. -/
theorem test_witness_SignalLoads_order :
    let s := { live with pim := live.pim.setForces [⟨0, ⟨true, 0x20000⟩, 3#32, 5⟩] }
    forceFor s none ⟨true, 0x20000⟩ = some 3#32 ∧
      forceFor s (some 0) ⟨false, 0xFFFFF⟩ = none ∧ (⟨false, 0xFFFFF⟩ : Sig).area = .input ∧
      forceFor s (some 0) ⟨false, 0x2FFFFF⟩ = none ∧ (⟨false, 0x2FFFFF⟩ : Sig).area = .hostReq ∧
      forceFor s (some 0) ⟨false, 0x100000⟩ = none ∧ (⟨false, 0x100000⟩ : Sig).area = .output ∧
      forceFor s none ⟨true, 0x40000⟩ = none ∧ (⟨true, 0x40000⟩ : Sig).area = .boundary ∧
      forceFor s (some 0) ⟨true, 0x60000⟩ = none ∧ forceFor s none ⟨true, 0x60000⟩ = none ∧
      (⟨true, 0x60000⟩ : Sig).area = .internal := by decide +kernel

/-- The first output and the last boundary signal of both spaces, named and in a register. -/
theorem test_witness_CommittedStores_signals :
    let s := withRegs 0 [(1, 0x1FFFFF), (2, 0x20000), (3, 0x4FFFF)] live
    Runs s 0 x0 ∧ x0.vital = true ∧ ∀ g ∈ [(⟨true, 0x20000⟩ : Sig), ⟨true, 0x4FFFF⟩, ⟨false, 0x100000⟩, ⟨false, 0x27FFFF⟩,
        ⟨false, (s.cores[(0 : CoreId)].reg 1).toNat⟩, ⟨true, (s.cores[(0 : CoreId)].reg 2).toNat⟩,
        ⟨true, (s.cores[(0 : CoreId)].reg 3).toNat⟩],
      g.inRange = true ∧ (g.area = .output ∨ g.area = .boundary) := by
  simp only [Runs]; decide +kernel

theorem test_witness_LocalSignalStores :
    let s := withRegs 0 [(1, 0x4FFFFF), (2, 0x1FFFF)] live
    Runs s 0 x0 ∧ x0.who = .vital 0 0 0 ∧ SMap.wf 0 s.pim.img[(0 : Lane)].ints[(0 : PartId)] = true ∧
      SMap.wf none s.pim.img[(0 : Lane)].ovl[(0 : PartId)] = true ∧
      ∀ g ∈ [(⟨true, 0⟩ : Sig), ⟨true, 0x50000⟩, ⟨true, 0x7FFFF⟩, ⟨false, 0x280000⟩,
        ⟨false, (s.cores[(0 : CoreId)].reg 1).toNat⟩, ⟨true, (s.cores[(0 : CoreId)].reg 2).toNat⟩],
      g.inRange = true ∧ g.area ≠ .output ∧ g.area ≠ .boundary := by
  simp only [Runs]; decide +kernel

/-- The first selector that RDB refuses, and the last, on a vital core and a non-vital one. -/
theorem test_witness_SystemReads :
    Runs live 0 x0 ∧ x0.vital = true ∧ 6 ≤ (6 : Reg).val ∧ 6 ≤ (31 : Reg).val ∧ Runs live 15 x15 ∧ x15.vital = false ∧
      x15.who = .nonvital 0 ∧ (0 : NvId) ∉ live.cores[(15 : CoreId)].nvIdle ∧ live.tri.nvTrapValid = false := by
  simp only [Runs]; decide +kernel

/-- Each trap, with addresses one above the end of their space. -/
theorem test_witness_VitalTraps :
    let s := withRegs 0 [(1, 5242880), (2, 524288)] live
    let k := s.cores[(0 : CoreId)]
    let at_ := fun (ib : Word) => modCore 0 (fun k => { k with ib := ib }) s
    Runs (at_ 0x40001002) 0 x0 ∧ (at_ 0x40001002).cores[(0 : CoreId)].ib.toNat % 4 ≠ 0 ∧
      Runs (at_ 0x40100000) 0 x0 ∧ (at_ 0x40100000).cores[(0 : CoreId)].ib.toNat % 4 = 0 ∧
      ¬ Loadable (at_ 0x40100000) 0 x0 0x40100000 ∧ k.ib.toNat % 4 = 0 ∧ Loadable s 0 x0 k.ib.toNat ∧
    Runs s 0 x0 ∧ x0.vital = true ∧ 5242880 ≤ (k.reg 1).toNat ∧ 524288 ≤ (k.reg 2).toNat ∧
      5242880 ≤ (0x500000#23).toNat ∧ k.reg 0 = 0 ∧ k.nmiSave = none ∧
      bankWord s x0.bank (x0.base + (k.ib.toNat - 0x40000000)) ≠ k.reg 1 ∧ 6 ≤ (6 : Reg).val := by
  simp only [Runs, Loadable, InRegion]; decide +kernel

theorem test_witness_VitalTraps_trv10 :
    let s := { live with variant := .trv10 }
    Runs s 0 x0 ∧ x0.vital = true ∧ s.variant = .trv10 := by simp only [Runs]; decide +kernel

/-- SVQ at its quota and on a closed queue; SVW with IMM 8, an odd index, an index at the last word queued and one at
the words that the close left, with a close mark and without one. -/
theorem test_witness_VitalTraps_survey :
    let full := modCore 0 (fun k => { k with svq := 2 * 0xCCC }) live
    let s := withRegs 0 [(1, 1), (2, 2), (3, 4)] (modCore 0 (fun k => { k with closeMark := some 4, svq := 4 }) { live with
      svy := { live.svy with queues := vset live.svy.queues 0 { SvyQ.init with closeBy := 1, closeLen := 2 } } })
    let k := s.cores[(0 : CoreId)]
    Runs full 0 x0 ∧ x0.who = .vital 0 0 0 ∧ full.variant ≠ .trv10 ∧
      2 * full.svy.queues[(0 : TriadId)].quotaAct.toNat ≤ full.cores[(0 : CoreId)].svq ∧
      Runs s 0 x0 ∧ s.svy.queues[(0 : TriadId)].closeBy ≠ 0 ∧
      s.svy.queues[(0 : TriadId)].words.length ≤ k.svq ∧ 7 < (8#16).toNat ∧ (k.reg 1).toNat % 2 ≠ 0 ∧
      k.svq ≤ (k.reg 3).toNat + 1 ∧ s.svy.queues[(0 : TriadId)].closeLen ≤ (k.reg 2).toNat + 1 ∧
      k.closeMark ≠ none ∧ full.cores[(0 : CoreId)].closeMark = none := by
  simp only [Runs]; decide +kernel

/-- The first word after the program area. -/
theorem test_witness_VitalTraps_fetch :
    let s := modCore 0 (fun k => { k with pc := 1024#22 }) live
    coreCtx s 0 = some x0 ∧ x0.vital = true ∧ x0.prog ≤ s.cores[(0 : CoreId)].pc.toNat ∧
      decodeItrel 0 0x00000001 = .add 0 0 0 0 := by decide +kernel

/-- Signal addresses at both sides of the ends of their spaces; a misaligned address; addresses one word past SRAM, past the
quota and past its window, and past the devices; the last program word; a device place of nobody. -/
theorem test_witness_NonvitalStops :
    let s := withRegs 15 [(1, 0x3), (2, 0x40000), (3, 0x40100000), (4, 0x7FFFFFFC), (5, 0x80000000), (6, 0xBFFFFFFC),
      (7, 0xC380C000), (8, 0x40000FFC), (9, 0xC2000000), (10, 0x3FFFFFFC), (11, 524287), (12, 5242879)] live
    let k := s.cores[(15 : CoreId)]
    let p := fun a : Reg => formAddr k (some a) 0
    Runs s 15 x15 ∧ x15.who = .nonvital 0 ∧ (0 : NvId) ∉ k.nvIdle ∧ k.reg 0 = 0 ∧ s.variant ≠ .trv10 ∧
      s.tri.nvTrapValid = false ∧ { s.tri with nvTrapValid := true }.nvTrapValid = true ∧
      (5242879#23).toNat < 5242880 ∧ 5242880 ≤ (5242880#23).toNat ∧ (k.reg 11).toNat < 524288 ∧
      (k.reg 12).toNat < 5242880 ∧ p 1 % 2 ≠ 0 ∧ p 1 % 4 ≠ 0 ∧
      (∀ a ∈ [(2 : Reg), 3, 4, 5, 6, 7, 9, 10], p a % 4 = 0 ∧ ¬ Loadable s 15 x15 (p a)) ∧
      (∀ a ∈ [(3 : Reg), 4], 0x40000000 ≤ p a ∧ p a < 0x80000000 ∧ ¬ InRegion s 15 x15 (p a - 0x40000000)) ∧
      p 8 % 4 = 0 ∧ 0x40000000 ≤ p 8 ∧ p 8 < 0x80000000 ∧ InRegion s 15 x15 (p 8 - 0x40000000) ∧
      p 8 - 0x40000000 < 4 * x15.prog ∧
      (∀ a ∈ [(2 : Reg), 10], 0x40000 ≤ p a ∧ p a < 0x40000000) ∧
      (∀ a ∈ [(5 : Reg), 6], 0x80000000 ≤ p a ∧ p a < 0xC0000000) ∧
      0xC0000000 ≤ p 7 ∧ devOf s (p 7 - 0xC0000000) = none ∧ 0xC0000000 ≤ p 9 ∧
      devOf s (p 9 - 0xC0000000) = some (.can 0 0 0) ∧ devNv s (.can 0 0 0) 0 = false := by
  simp only [Runs, Loadable, InRegion]
  and_intros <;> decide +kernel

theorem test_witness_NonvitalStops_trv10 :
    let s := { live with variant := .trv10 }
    Runs s 15 x15 ∧ x15.who = .nonvital 0 ∧ (0 : NvId) ∉ s.cores[(15 : CoreId)].nvIdle ∧ s.variant = .trv10 := by
  simp only [Runs]; decide +kernel

/-- SVQ into an open queue, up to the last word of the quota; SVW on a request with a result and on one without. -/
theorem test_witness_SurveyInstructions :
    let k0 : State → State := modCore 0 (fun k => { k with svq := 2 * 0xCCC - 1 })
    let s := withRegs 0 [(1, 2)] (modCore 0 (fun k => { k with closeMark := some 1, svq := 4 }) { live with
      svy := { live.svy with done := [⟨0, 0, Vector.replicate 8 0#32⟩],
                             queues := vset live.svy.queues 0 { SvyQ.init with closeBy := 1, closeLen := 4 } } })
    Runs (k0 live) 0 x0 ∧ x0.who = .vital 0 0 0 ∧ live.variant ≠ .trv10 ∧
      (k0 live).cores[(0 : CoreId)].svq < 2 * ((k0 live).svy.queues[(0 : TriadId)].quotaAct).toNat ∧
      (k0 live).svy.queues[(0 : TriadId)].closeBy = 0 ∧
      Runs s 0 x0 ∧ s.cores[(0 : CoreId)].closeMark ≠ none ∧ (7#16).toNat ≤ 7 ∧
      (∀ a ∈ [(0 : Reg), 1], (s.cores[(0 : CoreId)].reg a).toNat % 2 = 0 ∧
        (s.cores[(0 : CoreId)].reg a).toNat + 1 < s.cores[(0 : CoreId)].svq ∧
        (s.svy.queues[(0 : TriadId)].closeBy ≠ 0 →
          (s.cores[(0 : CoreId)].reg a).toNat + 1 < s.svy.queues[(0 : TriadId)].closeLen)) ∧
      (s.svy.done.find? (fun r => r.triad = 0 && r.index = (s.cores[(0 : CoreId)].reg 0).toNat)).isSome = true ∧
      s.svy.done.find? (fun r => r.triad = 0 && r.index = (s.cores[(0 : CoreId)].reg 1).toNat) = none := by
  simp only [Runs]; decide +kernel

/-! ### Witnesses: voting, the cycle, Heel, the Kennel, the scrubber -/

/-- A commit record of a store of 9 to output word 0x20000, which P0 owns. -/
def rec9 : CommitRec := { kind := 1, seq := 1#32, sig := 7#64, sub := 0x4F, addr := 0x20000#32, value := 9#32 }

/-- A core presents something, and waits. -/
def presents (c : CoreId) (m : LaneMsg) : State → State :=
  modCore c (fun k => { k with run := .waitCommit, out := some m })

/-- C1 presents first; lane C presents nothing, and one record is not the next of the door loop application. -/
theorem test_witness_CommitVotes_first :
    let s := presents 1 (.commit rec9) live
    let d := { s with saf := { s.saf with dlaActive := true } }
    presented s 0 1 = some (1, 0, .commit rec9) ∧ dlaCommit s 0 rec9 = true ∧ s.triads[(0 : TriadId)].voter.cur = [] ∧
      s.triads[(0 : TriadId)].voter.wait = [] ∧ presented s 0 2 = none ∧
      presented d 0 1 = some (1, 0, .commit rec9) ∧ dlaCommit d 0 rec9 = false := by decide +kernel

/-- C0 has presented the record, C1 presents it too; then one that its partition does not own. -/
theorem test_witness_CommitVotes_second :
    let s := fun r => modVoter 0 (fun _ => { cur := [⟨0, .commit r, 8001500⟩], wait := [] })
      (presents 0 (.commit r) (presents 1 (.commit r) live))
    let other := { rec9 with addr := 0x20001#32 }
    (∀ r ∈ [rec9, other], presented (s r) 0 1 = some (1, 0, .commit r) ∧ (s r).triads[(0 : TriadId)].voter.wait = [] ∧
      (s r).triads[(0 : TriadId)].voter.cur = [⟨0, .commit r, 8001500⟩] ∧ (s r).triads[(0 : TriadId)].mode = .triad ∧
      (s r).triads[(0 : TriadId)].cores[(0 : Lane)] = some 0 ∧ r.kind = 1 ∧ r.sub / 16 = 4 ∧ dlaCommit (s r) 0 r = true) ∧
    (s rec9).tb + 6 < (s rec9).scn.nextB ∧ (s other).tb + 6 < (s other).scn.nextB ∧ (s rec9).saf.dlaActive = false ∧
    ownerOf (s rec9) (.signal rec9.signal) = some 0 ∧ (s rec9).triads[(0 : TriadId)].hnd.nmis = [] ∧
    (∀ m : Lane, SMap.wf 0 (s rec9).pim.img[m].cur = true) ∧
    ownerOf (s other) (.signal other.signal) ≠ some 0 ∧ (s other).parts[(0 : PartId)].st ≠ .stopped ∧
    (s other).err.vq.length < 32 := by decide +kernel

theorem test_witness_TrapVotes :
    let r : TrapRec := { code := 0x0226, seq := 1#32, pc := 3#22, addr := 0#32 }
    let s := modVoter 0 (fun _ => { cur := [⟨0, .trap r, 8001500⟩], wait := [] }) (presents 1 (.trap r) live)
    presented s 0 1 = some (1, 0, .trap r) ∧ presented live 0 1 = none ∧
      s.triads[(0 : TriadId)].voter = { cur := [⟨0, .trap r, 8001500⟩], wait := [] } ∧
      s.triads[(0 : TriadId)].mode = .triad ∧ s.parts[(0 : PartId)].st ≠ .stopped ∧ s.err.vq.length < 32 ∧
      s.triads[(0 : TriadId)].trap.valid = false := by decide +kernel

theorem test_witness_LaneOddAtWindowEnd :
    let w : Rel := ⟨rec9, 8001500, 2, [], none⟩
    let s := modVoter 0 (fun _ => { cur := [], wait := [w] }) live
    runningPart s 0 = some 0 ∧ s.triads[(0 : TriadId)].voter = { cur := [], wait := w :: [] } ∧
      s.triads[(0 : TriadId)].cores[w.third] = some 2 ∧ s.triads[(0 : TriadId)].hnd.isOpen = false ∧
      s.err.vq.length < 32 := by decide +kernel

/-- A voter that disagrees, two records that differ and two that do not, a handling interval with its NMI taken. -/
theorem test_witness_TriadStops :
    let s := presents 0 (.commit rec9) live
    let a : Arr := ⟨0, .commit rec9, 8001500⟩
    let b : Arr := ⟨1, .commit { rec9 with value := 8#32 }, 8001510⟩
    let c : Arr := ⟨1, .commit rec9, 8001510⟩
    let u := fun y => modVoter 0 (fun _ => { cur := [a, y], wait := [] }) live
    let v := modHnd 0 (fun h => { h with isOpen := true, taken := true, budgetFrom := 8001000 }) live
    (∀ t ∈ [s, u b, u c, v], runningPart t 0 = some 0 ∧ t.err.vq.length < 32 ∧ t.scn.mode ≠ .safe ∧
      t.scn.mode ≠ .shutdown ∧ ∀ m : TriadId, m ≠ 0 → t.triads[m].part ≠ some 0) ∧
    presented s 0 0 = some (0, 0, .commit rec9) ∧ dlaCommit s 0 rec9 = true ∧
    (∀ y ∈ [b, c], (u y).triads[(0 : TriadId)].mode = .triad ∧ (u y).triads[(0 : TriadId)].voter = { cur := [a, y], wait := [] }) ∧
    msgMatch a.msg b.msg = false ∧ msgMatch a.msg c.msg = true ∧
    v.triads[(0 : TriadId)].hnd.isOpen = true ∧ v.triads[(0 : TriadId)].hnd.taken = true := by decide +kernel

theorem test_witness_CycleStages :
    let s := { live with scn := { live.scn with agreed := false, phase := 1 } }
    live.scn.reqs = [] ∧ live.clk.stopped = false ∧ { live with clk := { live.clk with stopped := true } }.clk.stopped = true ∧ live.scn.agreed = true ∧ State.reset.scn.mode = .start ∧ live.scn.mode ≠ .start ∧ live.scn.mode ≠ .shutdown ∧ live.scn.cycle ≠ 0 ∧ s.scn.mode ≠ .start ∧
      s.scn.mode ≠ .shutdown ∧ s.scn.cycle ≠ 0 ∧ s.scn.agreed = false := by decide +kernel

theorem test_witness_PartitionEntry_nonvital :
    let s := modCore 15 (fun k => { k with nvIdle := [0] }) live
    s.cores[(15 : CoreId)].nvIdle = [0] ∧ (nvDesc s 0).isSome = true := by decide +kernel

theorem test_witness_PartitionEntry :
    { p0 with lostEntry := 16 }.lostEntry ≠ 0 ∧ instOk (p0.sizeMib * 1048576) p0.lostInst = false ∧
      instOk (p0.sizeMib * 1048576) { p0 with lostInst := 0x400FFFF0#32 }.lostInst = true ∧ { p0 with nmiEntry := 32 }.nmiEntry ≠ 0 ∧ p0.nmiEntry = 0 := by decide

/-- P0 solves past B + T_cyc, not isolated and isolated; it has a budget; N0 runs on C15 alone; PLL-T stands still. -/
theorem test_witness_Overruns :
    let s := modPart 0 (fun p => { p with budgetArmed := 100#20 }) live
    let u := modPart 0 (fun p => { p with isolated := true }) s
    let n := modPart 0 (fun p => { p with st := .ready, entered := false }) live
    (∀ t ∈ [s, u], t.scn.mode = .run ∧ t.err.vq.length < 32 ∧ t.parts[(0 : PartId)].st = .solving ∧
      t.clk.stopped = false ∧ t.parts[(0 : PartId)].entered = true ∧ t.parts[(0 : PartId)].budgetArmed ≠ 0 ∧
      ∀ q : PartId, q ≠ 0 → t.parts[q].st ≠ .solving ∧ t.parts[q].entered = false) ∧
    { s with clk := { s.clk with stopped := true } }.clk.stopped = true ∧
    (∀ q : PartId, n.parts[q].st ≠ .solving ∧ n.parts[q].entered = false) ∧ n.scn.mode = .run ∧ n.err.vq.length < 32 ∧
    live.parts[(0 : PartId)].budgetArmed = 0 ∧ (∀ d : CoreId, n.cores[d].nv ≠ some 1) ∧
    s.parts[(0 : PartId)].isolated = false ∧ u.parts[(0 : PartId)].isolated = true ∧ triadOf u 0 = some 0 ∧
    runningPart u 0 = some 0 ∧
    (∀ d : CoreId, s.cores[d].nv = some 0 ↔ d = 15) ∧ s.nvs[(0 : NvId)].st = .running ∧
    s.nvs[(0 : NvId)].budgetAct ≠ 0 ∧ (0 : NvId) ∉ s.cores[(15 : CoreId)].nvIdle := by decide +kernel

/-- An Emit, in an ordinary and in a stepped cycle, with P0 waiting to solve; a credit at its last cycle, with a hold-over and
without; a vital channel. -/
theorem test_witness_OutputsLapse :
    let s := modPart 0 (fun p => { p with emitting := true, st := .ready })
      (modOut 3 (fun o => { o with credit := some 5, code := true }) live)
    let h := { s with rck := { s.rck with holdOver := some 6 } }
    s.parts[(0 : PartId)].emitting = true ∧ s.parts[(0 : PartId)].emitStepped = false ∧
      (modPart 0 (fun p => { p with emitStepped := true }) s).parts[(0 : PartId)].emitStepped = true ∧
      s.parts[(1 : PartId)].emitting = false ∧ triadOf s 0 = some 0 ∧ (partDesc s 0).isSome = true ∧
      s.parts[(0 : PartId)].entered = true ∧ s.parts[(0 : PartId)].st = .ready ∧
      s.dio.outs[(4 : Chan)].credit = none ∧ s.rck.holdOver = none ∧ s.dio.outs[(3 : Chan)].code = true ∧
      h.dio.outs[(3 : Chan)].credit = some 5 ∧ h.dio.outs[(3 : Chan)].emitsOn = true ∧
      h.rck.holdOver = some (h.scn.cycle + 1) ∧
      (modOut 4 (fun o => { o with vital := false }) s).dio.outs[(4 : Chan)].vital = false ∧
      s.dio.outs[(3 : Chan)].credit = some 5 ∧ 5 ≤ s.scn.cycle ∧
      s.dio.outs[(3 : Chan)].vital = true ∧ suppressed s 3 = false ∧ bit s.tri.dynFault 3 = false ∧
      s.variant ≠ .trv16b ∧ s.err.vq.length < 32 := by decide +kernel

/-- The control word of the last entry of CAN_3, which P0 owns, and its mirror blocks, in RUN and in STOP. -/
theorem test_witness_OutputsLapse_devices :
    let im := { image with owners := [⟨.canTx 3 255, 0⟩, ⟨.mirror 0, 0⟩, ⟨.mirror 1, 0⟩] }
    let s := modPart 0 (fun p => { p with emitting := true }) (modCan 3 (fun x => { x with
      st := .active, ctl := [(255, 0x80000000#32)] }) { live with olc := live.olc.setActive (some im) })
    let stop := { s with scn := { s.scn with mode := .stop } }
    (255, 0x80000000#32) ∈ s.can[(3 : Fin 4)].ctl ∧ (∀ v, (255, v) ∈ s.can[(3 : Fin 4)].ctl → v = 0x80000000#32) ∧
      ownerOf s (.canTx 3 255) = some 0 ∧ bit (0x80000000#32) 31 = true ∧ bit (0x80000000#32) 30 = false ∧
      canMute s.can[(3 : Fin 4)] = false ∧ bit (canEntryFrame s.can[(3 : Fin 4)] 255).id 31 = false ∧
      (canEntryFrame s.can[(3 : Fin 4)] 255).brs = false ∧ s.scn.mode ≠ .stop ∧ s.scn.mode ≠ .safe ∧
      stop.scn.mode = .stop ∧ SMap.wf 0 s.rck.mirCur = true ∧ ownerOf s (.mirror 0) = some 0 ∧
      ownerOf s (.mirror 1) = some 0 ∧ 191 < 192 ∧ 255 < 256 := by
  refine ⟨by decide +kernel, ?_, by decide +kernel, by decide, by decide, by decide +kernel, by decide +kernel,
    by decide +kernel, by decide +kernel, by decide +kernel, rfl, by decide +kernel, by decide +kernel, by decide +kernel,
    by decide, by decide⟩
  intro v hv
  have hc : (modCan 3 (fun x => { x with st := .active, ctl := [(255, 0x80000000#32)] }) live).can[(3 : Fin 4)].ctl =
    [(255, 0x80000000#32)] := by decide +kernel
  have hv : (255, v) ∈ [(255, 0x80000000#32)] := hc ▸ hv
  simpa using hv

theorem test_witness_KennelOutcomes_waits :
    let s := { modTriad 0 (fun t => { t with mode := .pair, odd := some 2 }) (modCore 5 (fun k =>
      { k with st := .kennel, ken := .waitInvalid }) live) with tri := { live.tri with pairLimitAct := 1#16 } }
    s.triads[(0 : TriadId)].mode = .pair ∧ s.tri.pairLimitAct ≠ 0 ∧ s.cores[(5 : CoreId)].st = .kennel ∧
      s.cores[(5 : CoreId)].ken = .waitInvalid ∧ inStart s = false ∧ Instr.reserveRetestDue 5 ≠ .kennelRetryDue 5 ∧
      live.tri.retestAct ≠ 0 ∧ (modCore 5 (fun k => { k with st := .reserve }) live).cores[(5 : CoreId)].st = .reserve := by
  decide +kernel

theorem test_witness_KennelOutcomes :
    let s := modCore 5 (fun k => { k with st := .kennel, ken := .test }) live
    let u := modTriad 1 (fun t => { t with leashing := true, cores := #v[none, some 5, none] })
      (modCore 5 (fun k => { k with st := .kennel, ken := .quick }) live)
    s.cores[(5 : CoreId)].st = .kennel ∧ s.cores[(5 : CoreId)].kenResult = none ∧ s.cores[(5 : CoreId)].ken = .test ∧
      u.cores[(5 : CoreId)].st = .kennel ∧ u.cores[(5 : CoreId)].kenResult = none ∧ u.cores[(5 : CoreId)].ken = .quick ∧
      u.triads[(1 : TriadId)].leashing = true ∧ u.triads[(1 : TriadId)].cores[(1 : Lane)] = some 5 ∧
      (∀ m : Lane, m ≠ 1 → u.triads[(1 : TriadId)].cores[m] = none) ∧ (#v[KResult.fail, .pass, .fail])[1] = .pass := by
  decide +kernel

/-- A last pass over one page whose healthy banks agree, and over one where they do not. -/
theorem test_witness_HeelAndScrubber_heel :
    let s := modHeel 0 (fun h => { h with st := .catchup, bank := some 2, pass := 255, pages := [1] })
      { live with banks := #v[[(4096, 5#8)], [(4096, 5#8)], []] }
    let d := { s with banks := #v[[(4096, 5#8)], [], []] }
    live.triads[(0 : TriadId)].heel.running = false ∧ (∀ t ∈ [s, d], t.triads[(0 : TriadId)].heel.running = true ∧
      t.triads[(0 : TriadId)].heel.bank = some 2 ∧ t.triads[(0 : TriadId)].part = some 0 ∧
      t.triads[(0 : TriadId)].heel.st = .catchup ∧ t.triads[(0 : TriadId)].heel.pages = [1] ∧
      ∀ m : Lane, SMap.wf 0#8 t.banks[m] = true) ∧
      pageAgrees s 0 2 1 = true ∧ pageNeeds s 0 2 1 = [512] ∧ pageAgrees d 0 2 1 = false := by decide +kernel

/-- Bank B differs at the first word of the region; all three differ at the last. -/
theorem test_witness_HeelAndScrubber_word :
    let s := { modPart 0 (fun p => { p with st := .ended, released := true }) live with
      banks := #v[[(1048568, 1#8)], [(0, 5#8), (1048568, 2#8)], [(1048568, 3#8)]] }
    partScrub live 0 = false ∧ sysScrub { live with scn := { live.scn with agreed := false } } = false ∧ partScrub s 0 = true ∧ triadOf s 0 = some 0 ∧ (∀ m : Lane, SMap.wf 0#8 s.banks[m] = true) ∧
      (∀ ofs ∈ [0, 8, 1048568], ofs < 0xE0000000 ∧ ofs % 8 = 0 ∧ partAt s ofs = some 0) ∧
      judgeRegion s 0 0 = .repair 1 ∧ judgeRegion s 0 1 = .fine ∧ judgeRegion s 0 (1048568 / 8) = .noMajority ∧
      formed s 0 = true ∧ s.err.vq.length < 32 := by decide +kernel

/-! ### Witnesses: clocks, gates, check values, Survey, events -/

/-- The ends of the monitor's range and one count outside each; a switch to IO under way; IO gone, in RUN. -/
theorem test_witness_References :
    let x := { live with clk := { live.clk with srcIo := false } }
    let w := { x with clk := { x.clk with switchTo := some true } }
    let g := { live with clk := { live.clk with ioOk := false, noRefFrom := some 8000000 } }
    (973 ≤ 973 ∧ 973 ≤ 1075 ∧ 973 ≤ 1075 ∧ 1075 ≤ 1075 ∧ (972 < 973 ∨ 1075 < 972) ∧ (1076 < 973 ∨ 1075 < 1076)) ∧
      live.clk.ioOk = true ∧ live.clk.srcIo = true ∧ x.clk.ioOk = true ∧ x.clk.srcIo = false ∧ x.clk.switchTo = none ∧
      w.clk.switchTo = some true ∧ g.clk.ioOk = false ∧ g.clk.noRefFrom = some 8000000 ∧ g.scn.mode = .run ∧
      g.bst.block = 0xFF ∧ g.bst.block ≠ 1 ∧ w.clk.ioOk = true ∧ g.err.vq.length < 32 := by decide +kernel

theorem test_witness_SamplesOfTime :
    let s := { live with clk := { live.clk with refLock := true, ppsOk := true }, scn := { live.scn with mode := .stop } }
    s.clk.refLock = true ∧ s.clk.ppsOk = true ∧ s.scn.mode = .stop ∧ s.bst.ph = .over ∧ s.bst.testFrom = none := by decide +kernel

/-- Gate 0 asked for, pending and closed; the rack bus of a twin. -/
theorem test_witness_ClockGates :
    let p := { live with clk := { live.clk with gateReq := 0x01, gatePend := 0x01 }, can := vupd live.can 0 (fun x =>
      { x with st := .off }) }
    let c := { live with clk := { live.clk with gateReq := 0x80, gateClosed := 0x80 } }
    let t := { live with rck := { live.rck with role := .active } }
    live.bst.block ≠ 1 ∧ gateExists live 0 = true ∧ gateExists live 7 = true ∧ (0 : Gate) ≠ 6 ∧ bit live.clk.gateReq 0 = false ∧
      t.rck.role ≠ .single ∧ bit p.clk.gatePend 0 = true ∧ gateIdle p 0 = true ∧ bit c.clk.gateClosed 7 = true := by
  decide +kernel

/-- Unit 7 in PORT, idle, with a match and a mismatch, and busy; a unit elsewhere; a DMA at the end of a bank; a job. -/
theorem test_witness_CheckValueUnits :
    let unit := fun (f : CrcU → CrcU) => modCrc 7 (fun x => f { x with modeAct := 1 }) live
    let idle := unit id
    let good := unit (fun x => { x with exp := crcTrim 7 (crcRes 7 x.run) })
    let bad := unit (fun x => { x with exp := ~~~(crcTrim 7 (crcRes 7 x.run)) })
    let busy := unit (fun x => { x with busy := true, goOfs := 0xDFFFFFFF#32, goLen := 1#24 })
    let job : CheckJob := ⟨0x2000, 4, 0x3000, true, 1, 7⟩
    let jobs := modCrc 7 (fun x => { x with modeAct := 2, jobs := [⟨0, 0, 0⟩] }) { live with olc := live.olc.setActive (some
      { image with parts := vset image.parts 0 (some ⟨{ p0 with jobs := [job] }, [], [], [], []⟩) }) }
    live.bst.block ≠ 0x0E ∧ jobs.crc[(7 : Fin 8)].modeAct = 2 ∧ (∀ r ∈ jobs.crc[(7 : Fin 8)].jobs, jobs.parts[r.part].st ≠ .stopped) ∧
      idle.crc[(7 : Fin 8)].modeAct = 1 ∧ idle.crc[(7 : Fin 8)].busy = false ∧
      crcTrim 7 (crcRes 7 good.crc[(7 : Fin 8)].run) = crcTrim 7 good.crc[(7 : Fin 8)].exp ∧
      crcTrim 7 (crcRes 7 bad.crc[(7 : Fin 8)].run) ≠ crcTrim 7 bad.crc[(7 : Fin 8)].exp ∧
      bad.crc[(7 : Fin 8)].ie = false ∧ live.crc[(7 : Fin 8)].modeAct ≠ 1 ∧
      busy.crc[(7 : Fin 8)].busy = true ∧ busy.crc[(7 : Fin 8)].checkDue = false ∧
      busy.crc[(7 : Fin 8)].goOfs.toNat + busy.crc[(7 : Fin 8)].goLen.toNat ≤ 0xE0000000 ∧
      jobs.crc[(7 : Fin 8)].jobs = [⟨0, 0, 0⟩] ∧ jobs.parts[(0 : PartId)].st ≠ .stopped ∧
      (∀ a ∈ [0, 2 ^ 32 - 1], intact busy (crcBank busy.crc[(7 : Fin 8)].goBank) a = true) ∧
      (partDesc jobs 0).bind (fun d => d.jobs[0]?) = some job ∧
      jobGood jobs 7 0 job 0 = true := by decide +kernel

/-- Two queues to close; a request with a bad route to judge. -/
theorem test_witness_SurveyRound :
    let words := fun (q : SvyQ) => { q with words := [0x40000000#32, 0#32] }
    let closed := vmap (fun q => { q with closeBy := 1 }) live.svy.queues
    let c := { live with svy := { live.svy with
      cfgAct := 0x00000A14#32, round := 1, queues := vset (vset closed 4 SvyQ.init) 1 SvyQ.init } }
    let u := { live with svy := { live.svy with round := 2, queues := vupd live.svy.queues 0 words } }
    fld c.svy.cfgAct 8 16 ≠ 0 ∧ c.variant.svy = true ∧ c.scn.mode.bounded = true ∧ c.scn.cycle ≠ 0 ∧ c.svy.round < 2 ∧
      (∀ m : TriadId, c.svy.queues[m].closeBy = 0 ↔ m = 1 ∨ m = 4) ∧ c.err.nq.length < 60 ∧
      u.svy.round = 2 ∧ u.svy.failed = false ∧ u.svy.odd ≠ some 0 ∧ u.svy.pres = [] ∧
      ((judgeRound u 0).find? (fun x => x.1.triad = 0 && x.1.index = 0)).isSome = true ∧
      svyPresOf u 0 0 = [] ∧ u.svy.agreedAt = [] := by decide +kernel

/-- Lag windows that end: two results that differ; one result of a pair; after a release, the third lane missing, of three
and of a pair. -/
theorem test_witness_SurveyRound_lag :
    let a : SvyPres := ⟨0, 0, 0, Vector.replicate 8 0#32, [], 8001500⟩
    let b : SvyPres := ⟨1, 0, 0, Vector.replicate 8 1#32, [], 8001510⟩
    let v := { live with svy := { live.svy with pres := [a, b] } }
    let p := { live with svy := { live.svy with pres := [a], odd := some 2 } }
    let r := { live with svy := { live.svy with pres := [a, { b with words := a.words }], agreedAt := [(0, 0, 8001510)] } }
    let q := { live with svy := { live.svy with pres := [a], odd := some 1, agreedAt := [(0, 0, 8001510)] } }
    v.svy.failed = false ∧ v.svy.odd = none ∧ v.svy.agreedAt = [] ∧ svyPresOf v 0 0 = [a, b] ∧
      p.svy.failed = false ∧ p.svy.odd = some 2 ∧ p.svy.agreedAt = [] ∧ svyPresOf p 0 0 = [a] ∧
      (∀ s ∈ [r, q], s.svy.failed = false ∧ s.svy.agreedAt = [(0, 0, 8001510)] ∧ svyPresOf s 0 0 ≠ [] ∧
        (∀ x ∈ svyPresOf s 0 0, x.lane ≠ 2) ∧ s.svy.odd ≠ some 2 ∧
        ∀ m : Lane, m ≠ 2 → s.svy.odd = some m ∨ ∃ x ∈ svyPresOf s 0 0, x.lane = m) ∧
      r.svy.odd = none ∧ q.svy.odd ≠ none := by decide +kernel

theorem test_witness_EventsAndLogbook :
    let e := mkEv live 0x0705 0xFF 0#32 0#32
    let v := { live with err := { live.err with vq := [e] } }
    let n := { live with err := { live.err with nq := [e] } }
    let h := { live with log := { live.log with hist := [⟨0x0705#16, 0#8, 0#8, 0#32, 5, 8000000, 0#32, 0#32⟩] } }
    v.err.vq = [e] ∧ n.err.vq = [] ∧ n.err.nq = [e] ∧ n.err.lostPend = 0 ∧ live.err.vq = [] ∧ live.err.nq = [] ∧
      live.bst.ph ≠ .off ∧ live.err.nq.length < 62 ∧ h.log.hist.length = 1 := by decide +kernel

/-! ### Witnesses: the host -/

/-- Every ring runs with one descriptor to fetch, and slot 0 holds a key. -/
def hosted : State :=
  { live with
    hst := { live.hst with
      link := true
      rings := Vector.replicate 8 { Ring.init with en := true, st := .running, size := 4, sqTail := 1 }
      slots := vset live.hst.slots 0 (some (List.replicate 32 0x55#8)) }
    scn := { live.scn with commEn := true } }

/-- A descriptor without a tag. -/
def plain (op : Nat) (arg0 arg1 : Dword) : Descriptor := ⟨BitVec.ofNat 8 op, 0, 7, 1, arg0, arg1, 0⟩

/-- A descriptor with its tag under the key of slot 0. -/
def signed (r : Fin 8) (op : Nat) (arg0 arg1 : Dword) : Descriptor :=
  let d : Descriptor := ⟨BitVec.ofNat 8 op, 1, 7, 1, arg0, arg1, 0⟩
  { d with tag := tagOf (List.replicate 32 0x55#8) r 0 d }

theorem hosted_keys : hosted.hst.slots[(0 : Fin 8)] = some (List.replicate 32 0x55#8) ∧
    (∀ q : Fin 8, hosted.hst.seqs[q][(0 : Fin 8)] = 0#32) ∧ hosted.hst.nonce = 0 ∧
    (∀ q : Fin 8, seqPending hosted q 0 = 0) := by decide +kernel

/-- Its tag is right, whatever it says: the tag field takes no part in the tag. -/
theorem signed_tag (r : Fin 8) (op : Nat) (a b : Dword) : tagCheck hosted r (signed r op a b) = 0 := by
  have hs : (signed r op a b).slot = 0 := Fin.ext (show fld (1#8) 1 3 = 0 by decide)
  have ⟨hk, hq, hn, hp⟩ := hosted_keys
  have ht : (signed r op a b).tagged = true := show bit (1#8) 0 = true by decide
  have he : tagOf (List.replicate 32 0x55#8) r 0 (signed r op a b) = (signed r op a b).tag := by
    simp only [signed, tagOf, Descriptor.head]
  have hv : (signed r op a b).seq = 1#32 := by simp only [signed]; rfl
  simp only [tagCheck, ht, hs, hk, hq, hn, hp, he, hv]
  rw [if_neg (by decide), if_neg (by simp), if_neg (by decide)]

theorem hosted_ring : ∀ r : Fin 8, ringFetches hosted r = true ∧ hosted.hst.rings[r].en = true ∧
    hosted.hst.rings[r].outs = [] := by decide +kernel

/-- Descriptors with a tag pass steps 1 to 6, each on its ring. -/
theorem test_witness_signed (s : State) (hs : s.hst = hosted.hst) (hb : s.bst.block = hosted.bst.block) (hm : s.scn.mode ≠ .shutdown) (r : Fin 8) (op : Nat)
    (a b : Dword) (h : op < 256) (ho : ringOpcode r op = true) :
    PassesChecks s r (signed r op a b) op ∧ (signed r op a b).tagged = true := by
  have hr := hosted_ring r
  have ht := signed_tag r op a b
  unfold ringFetches hstIdle at hr
  unfold tagCheck seqPending at ht
  unfold PassesChecks ringFetches tagCheck seqPending hstIdle
  rw [hs, hb]
  refine ⟨⟨hr.1, hr.2.1, ?_, ho, ?_, show fld (1#8) 4 4 = 0 by decide, ht, ?_⟩, show bit (1#8) 0 = true by decide⟩
  · exact Nat.mod_eq_of_lt h
  · intro h; exact absurd h hm
  · rw [hr.2.2]; simp

/-- Those without one pass too. -/
theorem test_witness_plain (s : State) (hs : s.hst = hosted.hst) (hb : s.bst.block = hosted.bst.block) (hm : s.scn.mode ≠ .shutdown) (r : Fin 8) (op : Nat)
    (a b : Dword) (h : op < 256) (ho : ringOpcode r op = true) : PassesChecks s r (plain op a b) op := by
  have hr := hosted_ring r
  unfold ringFetches hstIdle at hr
  unfold PassesChecks ringFetches hstIdle
  rw [hs, hb]
  refine ⟨hr.1, hr.2.1, ?_, ho, ?_, show fld (0#8) 4 4 = 0 by decide, if_pos (show (!bit (0#8) 0) = true by decide), ?_⟩
  · exact Nat.mod_eq_of_lt h
  · intro h; exact absurd h hm
  · rw [hr.2.2]; simp

theorem test_witness_opcodes : hosted.scn.mode ≠ .shutdown ∧ (∀ op ∈ [1, 2, 3, 4, 5, 6, 7, 8], ringOpcode 0 op = true) ∧ ringOpcode 1 0x11 = true ∧
    ringOpcode 3 0x31 = true ∧ (∀ op ∈ [0x41, 0x42, 0x43, 0x44, 0x45, 0x46, 0x47, 0x48], ringOpcode 4 op = true) ∧
    (∀ op ∈ [0x51, 0x52, 0x53, 0x54, 0x55, 0x56, 0x57], ringOpcode 5 op = true) ∧ ringOpcode 6 0x61 = true := by decide +kernel

/-- A wrong tag does not pass. -/
theorem test_tag_wrong : tagCheck hosted 0 { signed 0 2 3 0 with arg0 := 4 } = 5 := by decide +kernel

/-- Mode requests that are allowed and not. -/
theorem test_witness_ModeAllowed :
    (∀ m ∈ [Mode.run, .hold, .stop], ModeAllowed hosted m) ∧ ¬ ModeAllowed hosted .shutdown ∧
      ModeAllowed { hosted with scn := { hosted.scn with mode := .stop } } .shutdown ∧
      ¬ ModeAllowed { hosted with scn := { hosted.scn with mode := .safe } } .hold := by
  unfold ModeAllowed
  refine ⟨by decide +kernel, by decide +kernel, by decide +kernel, by decide +kernel⟩

/-- A step in HOLD, a hand-over, a restart of C15, a force in RUN. -/
theorem test_witness_HostRequestsWait :
    let h := { hosted with scn := { hosted.scn with mode := .hold } }
    let t := { hosted with rck := { hosted.rck with role := .active, pres := 0x8000#16, peerEqual := true } }
    let d := signed 5 0x51 0 0
    h.scn.mode = .hold ∧ h.scn.commEn = true ∧ h.scn.stepPending = false ∧
      t.rck.role = .active ∧ bit t.rck.pres 15 = true ∧ t.rck.peerEqual = true ∧
      t.scn.reqs.any (fun q => q.2 = .handover) = false ∧
      (15 : CoreId).val < hosted.variant.cores ∧ hosted.cores[(15 : CoreId)].st = .unleashed ∧
      gazSig hosted (argGaz d) = some ⟨true, 0x20000⟩ ∧ forceArgs true hosted d = true ∧ forceArgs false hosted d = true ∧
      forceFull (forcesNext hosted) (argGaz d) = false ∧
      forceRefusal hosted hosted.scn.commEn ⟨true, 0x20000⟩ (w32 d.arg1.toNat) = 0 := by decide +kernel

/-- A reset by the host, at both ends of its window; a brake test; an exercise of OUT_23 in STOP. -/
theorem test_witness_HostCommandsAnswered :
    let sd := { SafetyDesc.blank with
      hostReset := true
      brk := vset SafetyDesc.blank.brk 3 (some ⟨1, 1, 1, 0x20000, 0, 0, 0x100001, 0, 0⟩) }
    let s := { hosted with
      tb := 400000000
      saf := { hosted.saf with desc := some sd, armAt := some 300000000 } }
    let u := { s with saf := { s.saf with armAt := some 100000000 } }
    let io := { IoDesc.blank with outs := vset IoDesc.blank.outs 23 ⟨true, 0, 0, 100, some ⟨false, 0x100000⟩, none⟩ }
    let e := { hosted with
      scn := { hosted.scn with mode := .stop }
      dio := { hosted.dio with io := some io }
      olc := hosted.olc.setActive (some { image with io := io, owners := [⟨.signal ⟨false, 0x100000⟩, 0⟩] }) }
    s.saf.desc = some sd ∧ sd.hostReset = true ∧ s.saf.armAt = some 300000000 ∧
      100000000 ≤ s.tb - 300000000 ∧ s.tb - 300000000 ≤ 300000000 ∧ resetBlock s = 0 ∧
      u.saf.armAt = some 100000000 ∧ 100000000 ≤ u.tb - 100000000 ∧ u.tb - 100000000 ≤ 300000000 ∧
      s.variant ≠ .trv16b ∧ { s with variant := .trv16b }.variant = .trv16b ∧ (brkCfg s 3).isSome = true ∧ exerDetail e (outChan 23) = 0 := by
  decide +kernel

/-- The last record of the Logbook; the last section byte of a change set; a DMA that runs, with room in the completion
queue, with none, and behind an entry that waits. -/
theorem test_witness_HostMemoryCommands :
    let d := plain 0x31 0x000F_0001_0000 0x1000
    let o := signed 4 0x42 0x000F_0000_0010 0x1000
    let h : OlcHeader := ⟨1, 0, 0, Vector.replicate 5 none, Vector.replicate 8 none, 0, [(32, 0)]⟩
    let r := { hosted with olc := { hosted.olc with st := .receiving, header := some h } }
    let c : Cmd := ⟨0, 0, d, true⟩
    let e : CqEntry := ⟨1, false, false, 7, 0, 0, 0, 5, 0, 0⟩
    let m := modRing 3 (fun x => { x with outs := [c], fetched := 1 }) hosted
    let full := modRing 3 (fun x => { x with cq := List.replicate 15 e, cqTail := 15 }) m
    let wait := modRing 3 (fun x => { x with waitq := [e] }) m
    hosted.scn.mode ≠ .start ∧ fld d.arg0 48 16 = 0 ∧
      fld d.arg0 0 32 + fld d.arg0 32 16 + 1 ≤ 0x20000 ∧ fld d.arg1 0 2 = 0 ∧
      fld o.arg0 56 8 = 0 ∧ r.olc.st = .receiving ∧ r.olc.header = some h ∧
      h.sections[fld o.arg0 48 8]? = some (32, 0) ∧ fld o.arg0 0 32 + fld o.arg0 32 16 + 1 ≤ 32 ∧ fld o.arg1 0 2 = 0 ∧
      fld (signed 0 8 7 0).arg0 3 29 = 0 ∧ fld (signed 4 0x41 65536 0).arg0 0 32 ≤ 65536 ∧
      (∀ s ∈ [m, full, wait], dmaCmd s 3 0 = some c ∧ s.hst.rings[(3 : Fin 8)].en = true ∧ hstIdle s = false ∧
        ∀ e ∈ s.hst.rings[(3 : Fin 8)].outs, e.no = c.no → e = c) ∧
      cqFull m.hst.rings[(3 : Fin 8)] = false ∧ m.hst.rings[(3 : Fin 8)].waitq = [] ∧
      cqFull full.hst.rings[(3 : Fin 8)] = true ∧ wait.hst.rings[(3 : Fin 8)].waitq ≠ [] := by
  decide +kernel

theorem test_witness_HostMemoryCommands_key :
    let s := { hosted with hst := { hosted.hst with keyStores := [(⟨0, 0⟩, 2, List.replicate 32 1#8)] } }
    let key : List Byte := List.replicate 32 1#8
    let c : Cmd := ⟨0, 0, ⟨8, 1, 7, 1, BitVec.ofNat 64 (2 + 2 ^ 32 * (crc32c key).toNat), 0, 0⟩, true⟩
    let m := modRing 0 (fun x => { x with outs := [c], fetched := 1 })
      { hosted with scn := { hosted.scn with mode := .stop } }
    let d : Cmd := ⟨0, 0, ⟨0x31, 1, 7, 1, 0, 0, 0⟩, true⟩
    let q := modRing 3 (fun x => { x with outs := [d], fetched := 1 }) hosted
    s.hst.keyStores = [(⟨0, 0⟩, 2, List.replicate 32 1#8)] ∧ dmaCmd m 0 0 = some c ∧ c.desc.opcode = 8 ∧ key.length = 32 ∧
      crc32c key = w32 (fld c.desc.arg0 32 32) ∧ c.desc.tagged = true ∧ keyDetail m c.desc = 0 ∧ dmaCmd q 3 0 = some d ∧
      d.desc.opcode = 0x31 ∧ d.desc.tagged = true ∧ q.hst.seqs[(3 : Fin 8)][d.desc.slot].toNat < d.desc.seq.toNat := by
  decide +kernel

/-- An enable with the largest ring, a disable, doorbells at the last entry and one past it, a completion that waits. -/
theorem test_witness_HostRings :
    let off := { Ring.init with en := false }
    let s := modRing 2 (fun _ => off) hosted
    let e : CqEntry := ⟨1, false, false, 7, 0, 0, 0, 5, 0, 0⟩
    let w := modRing 2 (fun x => { x with waitq := [e] }) hosted
    let t := { live with pim := { live.pim with tmoAct := 3, tmoCnt := 3 } }
    hosted.hst.link = true ∧ State.reset.hst.link = false ∧ hstIdle hosted = false ∧ hstIdle s = false ∧ (2 : Fin 8) = 2 ∧ (5 : Fin 8) ≠ 2 ∧
      hosted.hst.rings[(5 : Fin 8)].st = .running ∧ (15#32).toNat < ringSize hosted.hst.rings[(5 : Fin 8)] ∧
      ringSize hosted.hst.rings[(5 : Fin 8)] ≤ (16#32).toNat ∧
      bit (0x8000000C#32) 31 = true ∧ s.hst.rings[(2 : Fin 8)].en = false ∧ fld s.hst.rings[(2 : Fin 8)].sqBase 0 12 = 0 ∧
      fld s.hst.rings[(2 : Fin 8)].cqBase 0 12 = 0 ∧ 1 ≤ fld (0x8000000C#32) 0 4 ∧ fld (0x8000000C#32) 0 4 ≤ 12 ∧
      bit (0x00000004#32) 31 = false ∧ hosted.hst.rings[(2 : Fin 8)].en = true ∧
      ringFields 2 0x00000004#32 hosted.hst.rings[(2 : Fin 8)] = hosted.hst.rings[(2 : Fin 8)] ∧
      hosted.hst.rings[(2 : Fin 8)].st = .running ∧ (15#32).toNat < ringSize hosted.hst.rings[(2 : Fin 8)] ∧
      ringSize hosted.hst.rings[(2 : Fin 8)] ≤ (16#32).toNat ∧
      w.hst.rings[(2 : Fin 8)].waitq = [e] ∧ w.hst.rings[(2 : Fin 8)].en = true ∧
      cqFull w.hst.rings[(2 : Fin 8)] = false ∧ t.pim.tmoAct ≠ 0 ∧ t.pim.tmoAct.toNat ≤ t.pim.tmoCnt ∧
      t.pim.hostLost = false := by decide +kernel

/-! ### Witnesses: on-line change, registers, start -/

/-- Every state of a change that the commands of ring 4 need, each with the host of `hosted`. -/
theorem test_witness_OnlineChangeCommands :
    let on := fun (o : Olc) => { hosted with olc := o }
    let receiving := on { hosted.olc with st := .receiving }
    let staged := on { hosted.olc with st := .staged, planUs := 1000 }
    let held := on { hosted.olc with st := .held, rollback := some image }
    (∀ s ∈ [receiving, staged, held], s.hst = hosted.hst ∧ s.scn.mode ≠ .shutdown) ∧
      (signed 4 0x43 0 0).arg0 = 0 ∧ (signed 4 0x43 0 0).arg1 = 0 ∧
      receiving.olc.st = .receiving ∧ receiving.olc.rollback = none ∧ hosted.olc.st ≠ .receiving ∧
      staged.olc.st = .staged ∧ staged.scn.mode = .run ∧ staged.olc.keyReqAct = true ∧ staged.scn.commEn = true ∧
      staged.olc.planUs ≤ staged.olc.maxUsAct.toNat ∧ staged.olc.rollback = none ∧
      held.olc.st = .held ∧ held.olc.accepting = false ∧
      activateDetail held true (min (planTime (rollbackPlan held).bytes) 0xFFFF) = 0 := by decide +kernel

/-- A set without sections that changes nothing: accepted by all lanes, and refused when one copy has a fault. -/
theorem test_witness_OnlineChangeStages_check :
    let h : OlcHeader := ⟨1, 0, 0, Vector.replicate 5 none, Vector.replicate 8 none, 0, []⟩
    let s := { live with olc := { live.olc with st := .checking, header := some h } }
    let good : LaneCheck := ⟨true, image⟩
    s.olc.st = .checking ∧ s.olc.header = some h ∧ (∀ l : Lane, laneVerdict s h l good = 0) ∧
      (∃ l m : Lane, laneVerdict s h l (#v[good, good, { good with crcOk := false }])[l] ≠
        laneVerdict s h m (#v[good, good, { good with crcOk := false }])[m]) ∧ s.olc.rollback = none := by decide +kernel

theorem test_witness_OnlineChangeStages_rest :
    let h : OlcHeader := ⟨1, 0, 0, Vector.replicate 5 none, Vector.replicate 8 none, 0, []⟩
    let v := { live with olc := { live.olc with st := .verifying, header := some h } }
    let w := { live with olc := { live.olc with st := .waiting, waitCnt := 64 } }
    let a := { live with olc := { live.olc with st := .held, rollback := some image, accepting := true } }
    v.olc.st = .verifying ∧ (∀ l : Lane, olcCrcs v.olc h l = true) ∧ (∀ l : Lane, (#v[true, true, true])[l] = true) ∧
      (∃ l : Lane, (#v[true, false, true])[l] = false) ∧ w.olc.st = .waiting ∧
      w.olc.waitAct.toNat ≤ w.olc.waitCnt ∧ a.olc.accepting = true ∧ a.olc.st = .held := by decide +kernel

/-- The ends of every register field that has a range, in a module where the registers are present. -/
theorem test_witness_RegisterAccesses :
    (∀ ofs ∈ [0x1000, 0x1240, 0x12B0, 0x13C0, 0x1804, 0x1808, 0x2008, 0x3808, 0x6864, 0x8004, 0x0000, 0x280C],
      absentUnit live ofs = none ∧ live.bst.block.toNat ≠ ofs / 0x800) ∧
    fld (0x8001#32) 0 8 = 1 ∧ fld (0x8080#32) 8 8 = 128 ∧ fld (0x81#32) 0 8 = 129 ∧
    live.bst.block ≠ 0 ∧ live.scn.mode ≠ .stop ∧ { live with scn := { live.scn with mode := .stop } }.scn.mode = .stop := by decide +kernel

/-- A unit that the TRV-10 lacks, a block under test, a misaligned offset and one outside the BAR. -/
theorem test_witness_RegisterAccesses_else :
    let s := { live with variant := .trv10 }
    let u := { s with absent := [6] }
    let b := { live with bst := { live.bst with block := 2 } }
    0x3000 % 4 = 0 ∧ 0x3000 < 0x10000 ∧ absentUnit s 0x3000 = some 6 ∧ 6 ∉ s.absent ∧ absentUnit u 0x3000 = some 6 ∧
      6 ∈ u.absent ∧ absentUnit b 0x1000 = none ∧ b.bst.block.toNat = 0x1000 / 0x800 ∧ (0x1001 % 4 ≠ 0) ∧
      0x10000 ≤ 0x10000 := by decide +kernel

theorem test_witness_ClearedBits :
    let stop := { live with scn := { live.scn with mode := .stop } }
    (∀ ofs ∈ [0x1450, 0x1824, 0x2004, 0x30A0, 0x7200, 0x7814, 0x1100, 0x18A0, 0x18A4, 0x18A8, 0x18AC, 0x18B0, 0x309C,
        0x10D4, 0x3AD4], absentUnit live ofs = none ∧ live.bst.block.toNat ≠ ofs / 0x800) ∧
      bit (0x80000000#32) 31 = true ∧ (∀ p : PartId, p.val < live.variant.triads) ∧ live.variant ≠ .trv16b ∧
      stop.scn.mode ≠ .run ∧ live.scn.mode = .run ∧ (∃ ch : Chan, bit (0x08000000#32) ch.val = true) ∧
      (∃ n : Fin 24, bit (0x00800000#32) n.val = true) := by decide +kernel

/-- START with a module that holds no record. -/
def begun : State := { State.reset with bst := { Bst.init with ph := .clock } }

/-- The record of a module that passed its test. -/
def passed : TestRec :=
  { TestRec.init with format := 1#32, result := 1#8, fw := Config.firmware, serial := Config.serial.setWidth 32 }.seal

theorem test_witness_StartKind_record :
    let s := { begun with nv := { begun.nv with recs := Vector.replicate 2 passed }
                          bst := { begun.bst with forceFull := false } }
    s.bst.ph = .clock ∧ s.scn.mode = .start ∧ recUsed s = some passed ∧ passed.result = 1 ∧
      passed.poh.toNat ≤ (pohNow s).toNat ∧ (pohNow s).toNat - passed.poh.toNat ≤ s.bst.maxAge.toNat ∧
      passed.fw = Config.firmware ∧ passed.serial = Config.serial.setWidth 32 ∧ s.bst.forceFull = false := by
  have h : passed.intact = true := by simp only [TestRec.intact, passed, TestRec.seal, TestRec.body]; simp
  refine ⟨rfl, rfl, ?_, rfl, Nat.zero_le _, ?_, rfl, rfl, rfl⟩
  · simp [recUsed, h]
  · exact Nat.le_trans (Nat.sub_le _ _) (by decide +kernel)

/-- A retry whose ring speeds lie at the low end of the window. -/
theorem test_witness_StartKind_retry :
    let s := { begun with
      bst := { begun.bst with ph := .retry }
      clk := { begun.clk with srcIo := false, rsi := Vector.replicate 3 Config.rsiWinMin } }
    s.bst.ph = .retry ∧ testCond s = true := by
  refine ⟨rfl, ?_⟩
  have h : ∀ l : Fin 3, (Vector.replicate 3 Config.rsiWinMin)[l] = Config.rsiWinMin := by
    intro l; simp
  have := Config.rsiWinMin.isLt
  simp only [testCond, h, Config.rsiWinMax]
  simp only [Bool.not_false, Bool.true_and, List.all_eq_true, decide_eq_true_eq]
  intro _ _; omega

/-- A core whose test waits in START while the conditions hold. -/
theorem test_witness_KennelOutcomes_start :
    let s := modCore 5 (fun k => { k with st := .kennel, ken := .waitInvalid }) { begun with
      clk := { begun.clk with srcIo := false, rsi := Vector.replicate 3 Config.rsiWinMin } }
    s.cores[(5 : CoreId)].st = .kennel ∧ s.cores[(5 : CoreId)].ken = .waitInvalid ∧ inStart s = true ∧
      testCond s = true := by
  refine ⟨by decide, by decide, rfl, test_witness_StartKind_retry.2⟩

/-- A monitor that has seen a good window, a bad one, and none; the ends of the tests of START. -/
theorem test_witness_StartKind :
    let at_ := fun (ph : StartPh) => { State.reset with bst := { Bst.init with ph := ph } }
    let r : SelfTest := ⟨true, true, true, 0, 0, 0, 0⟩
    let seen := fun (ok : Bool) => { begun with clk := { begun.clk with monSeen := true, xoInRange := ok } }
    (seen false).clk.monSeen = true ∧ (seen false).clk.xoInRange = false ∧ (seen true).clk.xoInRange = true ∧
      begun.clk.monSeen = false ∧ live.clk.monSeen = false ∧
      live.scn.mode ≠ .start ∧ begun.bst.ph = .clock ∧ begun.scn.mode = .start ∧ begun.err.nq.length < 60 ∧ recUsed begun = none ∧
      (at_ .quick).bst.ph = .quick ∧ (∀ c : CoreId, (Vector.replicate 16 KResult.pass)[c] = .pass) ∧
      (at_ .full).bst.ph = .full ∧ r.conditions = true ∧ (r.inTime (at_ .full)).failed (at_ .full).variant = 0 ∧ (at_ .full).scn.cycle = 0 ∧
      { r with romOk := false }.conditions = true ∧
      ({ r with romOk := false }.inTime (at_ .full)).failed (at_ .full).variant ≠ 0 ∧
      { r with conditions := false }.conditions = false := by decide +kernel

/-- Records of a failed test, and of a test whose hours the Logbook no longer holds. -/
theorem test_witness_StartKind_full :
    let bad := { TestRec.init with format := 1#32, result := 2#8 }.seal
    let old := { TestRec.init with format := 1#32, result := 1#8, poh := 9#32 }.seal
    let s := { begun with nv := { begun.nv with recs := Vector.replicate 2 bad } }
    let u := { begun with nv := { begun.nv with recs := Vector.replicate 2 old } }
    recUsed s = some bad ∧ bad.result ≠ 1 ∧ recUsed u = some old ∧ old.result = 1 ∧ (pohNow u).toNat < old.poh.toNat := by
  decide +kernel

/-- Every stage of a start and of a shut-down. -/
theorem test_witness_StartAndShutdown :
    let at_ := fun (ph : StartPh) => { State.reset with bst := { Bst.init with ph := ph } }
    let r : SelfTest := ⟨true, true, true, 0, 0, 0, 0⟩
    let im := { at_ .load with nv := { State.reset.nv with store := some image } }
    let badKey := { at_ .keys with nv := { State.reset.nv with
      sealed := vset State.reset.nv.sealed 7 (some (List.replicate 32 0#8, 0#32)) } }
    let waits := modCore 9 (fun k => { k with st := .kennel, ken := .waitInvalid }) (at_ .ready)
    let down := fun (n : BitVec 3) (no : Bool) => { live with
      scn := { live.scn with mode := .shutdown }
      bst := { live.bst with phase := n, noTest := no } }
    im.bst.ph = .load ∧ im.nv.store = some image ∧
      (at_ .check).bst.ph = .check ∧ (at_ .check).olc.active = none ∧ (at_ .keys).bst.ph = .keys ∧
      (∀ k : Fin 8, keyGood (at_ .keys).nv.sealed[k] = true) ∧ badKey.bst.ph = .keys ∧
      (∃ k : Fin 8, keyGood badKey.nv.sealed[k] = false) ∧ (at_ .ready).bst.ph = .ready ∧
      (∀ c : CoreId, kenWaits (at_ .ready) c = false ∧ kenRunning (at_ .ready) c false = false) ∧
      (at_ .ready).scn.mode ≠ .shutdown ∧ (at_ .ready).scn.reqs = [] ∧
      waits.bst.ph = .ready ∧ kenWaits waits 9 = true ∧
      (∀ no, (down 3 no).scn.mode = .shutdown ∧ (down 3 no).bst.phase = 3 ∧ (down 3 no).bst.drained = false ∧
        (down 3 no).bst.noTest = no) ∧
      (down 4 false).scn.mode = .shutdown ∧ (down 4 false).bst.phase = 4 ∧ r.conditions = true ∧
      { r with conditions := false }.conditions = false := by decide +kernel

/-! ### Witnesses: local channels and safety functions -/

/-- OUT_0 carries output 0x100000, which P0 owns, and its contactor reads back on IN_0; a brake test on SBC_3. -/
def wired : State :=
  let io := { IoDesc.blank with outs := vset IoDesc.blank.outs 0 ⟨true, 0, 0, 100, some ⟨false, 0x100000⟩, none⟩ }
  let sd := { SafetyDesc.blank with
    fb := vset SafetyDesc.blank.fb 0 (some ⟨0, false, 1⟩)
    brk := vset SafetyDesc.blank.brk 3 (some ⟨1, 1, 1, 0x20000, 0, 0, 0x100001, 0, 0⟩) }
  { live with
    olc := live.olc.setActive (some { image with io := io, safety := sd, owners := [⟨.signal ⟨false, 0x100000⟩, 0⟩] })
    dio := { live.dio with io := some io, chipAt := 7998000 }
    saf := { live.saf with desc := some sd } }

/-- A code that runs, one that may start, one that may not. -/
theorem test_witness_LocalChannels_chips :
    let s := modOut 1 (fun o => { o with code := true, chips := Vector.replicate 3 9#15 })
      (modOut 0 (fun o => { o with want := true, credit := some 6 }) wired)
    s.variant ≠ .trv16b ∧ s.clk.stopped = false ∧ { s with clk := { s.clk with stopped := true } }.clk.stopped = true ∧
      s.dio.chipAt < s.tb ∧ s.dio.outs[(1 : Chan)].code = true ∧ s.dio.outs[(0 : Chan)].code = false ∧
      codeOk s 0 = true ∧ s.dio.outs[(2 : Chan)].code = false ∧ codeOk s 2 = false := by decide +kernel

/-- A MONITORED input: readings at the ends of the three classes, and a run that becomes long enough. -/
theorem test_witness_LocalChannels_inputs :
    let s := modIn 47 (fun x => { x with
      cfgAct := 0x80000001#32
      chains := Vector.replicate 3 { Chain.init with runCls := some .closed, runLen := 9 } }) live
    bit s.clk.gateClosed 7 = false ∧ fld s.dio.ins[(47 : Fin 48)].cfgAct 30 2 = 2 ∧
      bit s.dio.ins[(47 : Fin 48)].cfgAct 29 = false ∧ bit s.dio.ins[(47 : Fin 48)].cfgAct 28 = false ∧
      (5000 < (⟨0, 5001⟩ : Reading).ua) ∧ (500 ≤ (⟨0, 500⟩ : Reading).ua ∧ (⟨0, 5000⟩ : Reading).ua ≤ 5000) ∧
      (⟨0, 499⟩ : Reading).ua < 500 ∧
      (∀ l : Lane, s.dio.ins[(47 : Fin 48)].chains[l].runCls = some .closed ∧
        10 * fld s.dio.ins[(47 : Fin 48)].cfgAct 0 16 ≤ s.dio.ins[(47 : Fin 48)].chains[l].runLen + 1 ∧
        s.dio.ins[(47 : Fin 48)].chains[l].runLen < 655350) := by decide +kernel

theorem test_witness_LocalChannels_outputs :
    live.dio.outs[(23 : Chan)].ovld = false ∧ live.saf.exer = none ∧ live.dio.outs[(23 : Chan)].vital = true ∧
      live.dio.outs[(23 : Chan)].code = false ∧ live.dio.outs[(23 : Chan)].stuck = false ∧ (23 : Chan).val < 24 ∧
      live.scn.mode = .run ∧ live.bst.block = 0xFF ∧ live.err.vq.length < 32 ∧
      (let v := #v[true, false, true]
       (v[(0 : Lane)] && v[(1 : Lane)] || v[(0 : Lane)] && v[(2 : Lane)] || v[(1 : Lane)] && v[(2 : Lane)]) = true) ∧
      live.rck.twinEnAct = false ∧ { live.rck with twinEnAct := true }.twinEnAct = true ∧ ¬ (24 : Chan).val < 24 ∧
      live.dio.outs[(24 : Chan)].vital = true ∧
      (∀ l : Lane, (15000 ≤ (#v[15000, 5000, 24000] : Vector Int 3)[l] ∨ (#v[15000, 5000, 24000] : Vector Int 3)[l] ≤ 5000)) := by
  decide +kernel

/-- A brake channel that waits for its current, and one that does not; a non-vital channel. -/
theorem test_witness_OffPulses_silence :
    let s := modOut 27 (fun o => { o with code := true }) live
    let n := modOut 23 (fun o => { o with vital := false }) live
    live.variant ≠ .trv16b ∧ live.dio.outs[sbcChan 3].coilFrom = none ∧
      (modOut 27 (fun o => { o with coilFrom := some 8000000 }) s).dio.outs[sbcChan 3].coilFrom = some 8000000 ∧
      n.dio.outs[chanLead n (outChan 23)].vital = false ∧ n.dio.outs[chanLead n (outChan 23)].silFired = false ∧
      n.scn.mode.bounded = true ∧ standing n = false := by decide +kernel

/-- The last position of the scheduler, due and not due; a verdict that passes and one that fails. -/
theorem test_witness_OffPulses_tests :
    let s := { live with dio := { live.dio with nextPos := 27 } }
    let d := modOut 27 (fun o => { o with code := true }) s
    let t := { live with dio := { live.dio with test := some (23, 8000000) } }
    let h := { s with rck := { s.rck with twinEnAct := true, handCyc := 4 } }
    h.scn.mode = .run ∧ handing h = true ∧ handing s = false ∧ handing d = false ∧
    s.scn.mode = .run ∧ s.dio.nextPos < 28 ∧ (27 : Chan).val = s.dio.nextPos ∧ pulseDue s 27 = false ∧
      (27 : Chan).val = d.dio.nextPos ∧ pulseDue d 27 = true ∧
      t.dio.test = some (23, 8000000) ∧ (∀ l : Lane, (#v[false, false, false])[l] = false) ∧
      (∃ l : Lane, (#v[false, true, false])[l] = true) ∧ t.saf.exer = none ∧
      (∀ k : Fin 4, t.dio.outs[sbcChan k].brkTest = false) := by decide +kernel

/-- An exercise at its end; a feedback that has differed for T_FB, and for one tick less. -/
theorem test_witness_SafetyFunctions :
    let e := modOut 0 (fun o => { o with exer := true }) { wired with
      saf := { wired.saf with exer := some (0, 10000000), exerOn := true, exerEnd := 9000000 } }
    let f := fun (from_ : Nat) => { wired with saf := { wired.saf with fbFrom := vset wired.saf.fbFrom 0 (some from_) } }
    e.saf.exerOn = true ∧ e.saf.exer = some (0, 10000000) ∧ e.dio.outs[(0 : Chan)].exer = true ∧
      (f 7900000).saf.desc.bind (fun d => d.fb[(0 : Fin 24)]) = some ⟨0, false, 1⟩ ∧
      (∀ t ∈ [7900000, 7900001], (f t).saf.fbFrom[(0 : Fin 24)] = some t ∧ (f t).scn.agreed = true ∧
        (f t).dio.outs[outChan 0].fbLatch = false ∧ (f t).saf.exer = none) ∧
      7900000 + 1 * 100000 ≤ (f 7900000).scn.bTb ∧ (f 7900001).scn.bTb < 7900001 + 1 * 100000 ∧
      chanTriad wired (outChan 0) = some 0 := by decide +kernel

/-- A brake test at T_TEST whose acknowledge reads 1, and one whose acknowledge reads 0; one due, overdue, and one that
an energise request waits for. -/
theorem test_witness_SafetyFunctions_brakes :
    let c : BrkCfg := ⟨1, 1, 1, 0x20000, 0, 0, 0x100001, 0, 0⟩
    let g : Sig := ⟨false, c.ack⟩
    let s := modBrk 3 (fun b => { b with phase := 1 }) { wired with scn := { wired.scn with bTb := 10000000 } }
    let u := modImg 0 (fun m => { m with cur := [(0, 1#32)], qual := [(0, 0x00011080#32)] }) s
    let w := modOut 27 (fun o => { o with waitOn := some 8000000 }) wired
    brkCfg s 3 = some c ∧ s.scn.agreed = true ∧ s.saf.brk[(3 : Fin 4)].phase = 1 ∧
      s.saf.brk[(3 : Fin 4)].startB + c.tTest * 10000000 ≤ s.scn.bTb ∧ areaVal s 0 none g = 0 ∧
      brkCfg u 3 = some c ∧ u.scn.agreed = true ∧ u.saf.brk[(3 : Fin 4)].phase = 1 ∧
      u.saf.brk[(3 : Fin 4)].startB + c.tTest * 10000000 ≤ u.scn.bTb ∧ areaVal u 0 none g ≠ 0 ∧
      qFlags (pimQuality u 0 none g) &&& (qSubst + qFault + qBreak + qStopped + qProof) = 0 ∧
      fld u.svy.cfgAct 24 8 = 0 ∧ brkCfg wired 3 = some c ∧ wired.saf.brk[(3 : Fin 4)].due = false ∧
      wired.saf.brk[(3 : Fin 4)].overdue = false ∧ wired.saf.brk[(3 : Fin 4)].graceAt = none ∧
      wired.variant ≠ .trv16b ∧ brkCfg { wired with variant := .trv16b } 3 = some c ∧
      brkCfg w 3 = some c ∧ w.dio.outs[sbcChan 3].waitOn = some 8000000 := by decide +kernel

/-! ### Witnesses: Ubuno -/

/-- UBA with ten slots and a hundred minislots, kept by the module: P0 sends in slot 5, station 7 in slot 2. -/
def bused : State :=
  let lay := { UbLayout.init with static := 0x0048000A#32, dynseg := 0x00080064#32 }
  let stn : Station := ⟨7, 2, 1, true, true, false, true, 2, 0, 0#32⟩
  let d := { UbDesc.blank with layout := lay, stations := [stn], slotLen := [(5, 16)] }
  { live with
    olc := live.olc.setActive (some { image with
      io := { IoDesc.blank with ub := vset IoDesc.blank.ub 0 d }
      owners := [⟨.ubSlot 0 5, 0⟩] })
    ub := vset live.ub 0 { Ub.init with
      lay := lay, layAct := lay, st := .keeper, cycNo := 5, cycFrom := 8000000, cycAtB := true, closed := false
      sfpA := true, sfpB := true, curValid := vset Ub.init.curValid 0 (some 5)
      stations := [⟨7, true, false, true, 2, 0, 0, false, none, false, false⟩]
      dynLeft := vset Ub.init.dynLeft 0 2, dyn := [⟨3, 8, 0, true, false⟩] } }

theorem test_witness_UbunoFrames_cycles :
    let s := modUb 0 (fun x => { x with cycNo := 4 }) bused
    let u := modUb 0 (fun x => { x with cycFrom := 9000000 }) bused
    ubRuns s 0 = true ∧ s.ub[(0 : Fin 2)].cycNo < s.scn.cycle ∧ s.ub[(0 : Fin 2)].st = .keeper ∧
      ubRuns bused 0 = true ∧ bused.scn.cycle ≤ bused.ub[(0 : Fin 2)].cycNo ∧
      bused.ub[(0 : Fin 2)].cycFrom + fld bused.clk.divAct 8 3 * (25 * bused.ub[(0 : Fin 2)].layAct.cycUs) <
        bused.scn.nextB ∧
      ubRuns u 0 = true ∧ u.scn.cycle ≤ u.ub[(0 : Fin 2)].cycNo ∧
      u.scn.nextB ≤ u.ub[(0 : Fin 2)].cycFrom + fld u.clk.divAct 8 3 * (25 * u.ub[(0 : Fin 2)].layAct.cycUs) := by decide +kernel

/-- Frames: not decoded, with a wrong CRC, one byte too long, in another slot than their ID's, outside the acceptance
window by one, good; a channel that hears nothing. -/
theorem test_witness_UbunoFrames_received :
    let f : UbFrame := ⟨false, 0, true, 2, ubBytes false 1 2 7 0 [1, 2]⟩
    let long : UbFrame := ⟨false, 0, true, 2, ubBytes false 1 2 7 0 (List.replicate 255 0)⟩
    let deaf := modUb 0 (fun x => { x with sfpB := false }) bused
    ubRuns bused 0 = true ∧ ubGated bused 0 = false ∧ ubDelivers bused.ub[(0 : Fin 2)] false = true ∧
      { f with decoded := false }.decoded = false ∧ { f with bytes := f.bytes.set 9 0xFF }.crcOk = false ∧
      bused.ub[(0 : Fin 2)].layAct.payloadMax < long.payload.length ∧ f.id ≠ { f with place := 3 }.place ∧
      ubRuns deaf 0 = true ∧ ubHears deaf.ub[(0 : Fin 2)] true = false ∧ f.typ ≠ 2 ∧ f.typ ≠ 3 ∧ bused.ub[(0 : Fin 2)].layAct.accUt < ({ f with dev := -4 }).dev.natAbs ∧
      ubJudge bused 0 f = .good ∧ ubJudge bused 0 { f with dev := 3 } = .good ∧ f.typ = 1 ∧
      bused.ub[(0 : Fin 2)].st ≠ .foreign ∧ bused.ub[(0 : Fin 2)].rx = [] := by decide +kernel

/-- The coldstart slot, P0's slot in RUN and in STOP, a slot of a bus that may not send. -/
theorem test_witness_UbunoSends_slots :
    let stop := { bused with scn := { bused.scn with mode := .stop } }
    let claims := modUb 0 (fun x => { x with st := .coldstart, claim := 1, claimFrom := 8000000 }) bused
    let mute := { bused with clk := { bused.clk with gatePend := 0x10 } }
    (∀ s ∈ [bused, stop], ubRuns s 0 = true ∧ ubMaySend s 0 = true ∧ s.ub[(0 : Fin 2)].st = .keeper ∧
      s.scn.cycle ≤ s.ub[(0 : Fin 2)].cycNo ∧ ownerOf s (.ubSlot 0 5) = some 0 ∧ ubPartLive s 0 = true) ∧
      (1 : Nat) = bused.ub[(0 : Fin 2)].layAct.coldSlot ∧ 5 ≠ bused.ub[(0 : Fin 2)].layAct.coldSlot ∧
      10 ≤ bused.ub[(0 : Fin 2)].layAct.slots ∧ bused.ub[(0 : Fin 2)].curValid[(0 : PartId)] = some 5 ∧
      bused.scn.cycle ≤ 5 ∧ bused.scn.mode = .run ∧ stop.scn.mode ≠ .run ∧ ubRuns claims 0 = true ∧
      ubMaySend claims 0 = true ∧ claims.scn.cycle ≤ claims.ub[(0 : Fin 2)].cycNo ∧
      claims.ub[(0 : Fin 2)].st = .coldstart ∧ claims.ub[(0 : Fin 2)].claim ≠ 0 ∧
      claims.ub[(0 : Fin 2)].claimFrom ≤ claims.ub[(0 : Fin 2)].cycFrom ∧ ubRuns mute 0 = true ∧
      ubMaySend mute 0 = false ∧ mute.scn.cycle ≤ mute.ub[(0 : Fin 2)].cycNo := by decide +kernel

/-- A request that its budget just allows, and one that it does not. -/
theorem test_witness_UbunoSends_dynamic :
    let x := bused.ub[(0 : Fin 2)]
    let r : DynReq := ⟨3, 8, 0, true, false⟩
    let u := modUb 0 (fun x => { x with dynLeft := vset x.dynLeft 0 1 }) bused
    ubRuns bused 0 = true ∧ 3 + x.lag < x.layAct.minis ∧ x.minis ≤ 3 ∧ bused.scn.cycle ≤ x.cycNo ∧
      x.dyn.find? (fun r => r.mini = 3 && r.ready) = some r ∧ ubMaySend bused 0 = true ∧ x.st = .keeper ∧
      ubPartLive bused r.part = true ∧ r.len ≤ x.layAct.payloadMax ∧ x.held = none ∧
      3 + x.lag + x.layAct.span r.len ≤ x.layAct.minis ∧ x.layAct.span r.len ≤ x.dynLeft[r.part] ∧
      ubRuns u 0 = true ∧ ubMaySend u 0 = true ∧ u.ub[(0 : Fin 2)].dynLeft[r.part] < x.layAct.span r.len ∧
      (∀ y ∈ u.ub[(0 : Fin 2)].dyn, y.part = r.part → y.limited = false) := by decide +kernel

/-- A waypoint at the last offset of the bus cycle; a station at its last miss. -/
theorem test_witness_UbunoFrames_rest :
    let s := modUb 0 (fun x => { x with wpAct := vset x.wpAct 7 0x8003D08F#32 }) bused
    let x := s.ub[(0 : Fin 2)]
    let b := modUb 0 (fun x => { x with stations := [⟨7, true, false, true, 1, 0, 0, false, none, false, false⟩] }) bused
    ubRuns s 0 = true ∧ ubGated s 0 = false ∧ bit x.wpAct[(7 : Fin 8)] 31 = true ∧ x.cycAtB = true ∧
      fld x.wpAct[(7 : Fin 8)] 0 19 + 1 = 25 * x.layAct.cycUs ∧ bit x.wpFired 7 = false ∧ x.cycNo = s.scn.cycle ∧
      ubRuns b 0 = true ∧ stnRt b 0 7 = some ⟨7, true, false, true, 1, 0, 0, false, none, false, false⟩ ∧
      stnOf b 0 7 = some ⟨7, 2, 1, true, true, false, true, 2, 0, 0#32⟩ ∧ b.ub[(0 : Fin 2)].closed = false := by
  decide +kernel

/-- The stages of keeping a bus. -/
theorem test_witness_UbunoKeeping :
    let l := modUb 0 (fun x => { x with st := .listening }) bused
    let h := modUb 0 (fun x => { x with heard := true }) l
    let e := modUb 0 (fun x => { x with layAct := { x.layAct with cfg := 0x07#32 } }) l
    let c := fun (n : Nat) => modUb 0 (fun x => { x with st := .coldstart, claim := n }) bused
    let ch := modUb 0 (fun x => { x with heard := true }) (c 0)
    let w := fun (low err : Bool) =>
      modUb 0 (fun x => { x with claimSent := true, lowSeen := low, errSeen := err }) (c 3)
    (∀ s ∈ [l, h, e, c 0, c 1, c 3, ch, w true false, w false true, w false false], ubRuns s 0 = true ∧ ubGated s 0 = false) ∧
      l.ub[(0 : Fin 2)].st = .listening ∧ l.ub[(0 : Fin 2)].heard = false ∧ l.ub[(0 : Fin 2)].layAct.coldEn = true ∧
      h.ub[(0 : Fin 2)].st = .listening ∧ h.ub[(0 : Fin 2)].heard = true ∧ e.ub[(0 : Fin 2)].st = .listening ∧
      e.ub[(0 : Fin 2)].heard = false ∧ e.ub[(0 : Fin 2)].layAct.coldEn = false ∧
      (c 1).ub[(0 : Fin 2)].st = .coldstart ∧ (c 1).ub[(0 : Fin 2)].claim ≠ 0 ∧ (c 1).ub[(0 : Fin 2)].claim ≠ 3 ∧
      (c 3).ub[(0 : Fin 2)].st = .coldstart ∧ (c 3).ub[(0 : Fin 2)].claim = 3 ∧ (c 0).ub[(0 : Fin 2)].claim = 0 ∧
      (c 0).ub[(0 : Fin 2)].heard = false ∧ ch.ub[(0 : Fin 2)].heard = true ∧ ch.ub[(0 : Fin 2)].claim = 0 ∧
      (∀ s ∈ [c 1, c 3], s.ub[(0 : Fin 2)].claimSent = false) ∧
      (∀ v ∈ [(modUb 0 (fun x => { x with claimSent := true }) (c 1)).ub[(0 : Fin 2)]],
        v.st = .coldstart ∧ v.claimSent = true ∧ v.lowSeen = false ∧ v.errSeen = false ∧ v.claim ≠ 3) ∧
      (∀ x ∈ [(true, false), (false, true), (false, false)],
        (w x.1 x.2).ub[(0 : Fin 2)].st = .coldstart ∧ (w x.1 x.2).ub[(0 : Fin 2)].claimSent = true ∧
        (w x.1 x.2).ub[(0 : Fin 2)].lowSeen = x.1 ∧ (w x.1 x.2).ub[(0 : Fin 2)].errSeen = x.2 ∧
        (w x.1 x.2).ub[(0 : Fin 2)].claim = 3) := by decide +kernel

/-- Channel A in its last cycle before a jam is declared, in one before, and jammed with 15 and 16 clean cycles. -/
theorem test_witness_UbunoKeeping_channels :
    let n := bused.ub[(0 : Fin 2)].layAct.jamCyc
    let r := fun (k : Nat) => modUb 0 (fun x => { x with jam := #v[⟨[], [2], false, k, 0⟩, ⟨[2], [], false, 0, 0⟩] }) bused
    let j := fun (k : Nat) => modUb 0 (fun x => { x with jamA := true, jam := #v[⟨[2], [], false, 0, k⟩, x.jam[1]] }) bused
    (∀ s ∈ [r (n - 1), r (n - 2), j 14, j 15], ubRuns s 0 = true ∧ ubGated s 0 = false ∧
      s.ub[(0 : Fin 2)].closed = false) ∧
      (∀ s ∈ [r (n - 1), r (n - 2)], ubJammed s.ub[(0 : Fin 2)] false = true ∧ ubIsJam s.ub[(0 : Fin 2)] false = false) ∧
      n ≤ (r (n - 1)).ub[(0 : Fin 2)].jam[chIx false].run + 1 ∧ (r (n - 2)).ub[(0 : Fin 2)].jam[chIx false].run + 1 < n ∧
      (∀ s ∈ [j 14, j 15], ubIsOut s.ub[(0 : Fin 2)] false = true ∧ ubJammed s.ub[(0 : Fin 2)] false = false) ∧
      (j 14).ub[(0 : Fin 2)].jam[chIx false].clean < 15 ∧ 15 ≤ (j 15).ub[(0 : Fin 2)].jam[chIx false].clean ∧
      hasUb bused 1 = true := by decide +kernel

/-! ### Witnesses: CAN, the rack bus and the twin -/

/-- CAN_3 active with one request of entry 31. -/
def canned : State :=
  modCan 3 (fun x => { x with
    st := .active
    reqs := [⟨31, ⟨0x123, 8, false, false, []⟩, false, false, false, 4, .vital 0, none, false, false⟩] }) live

theorem test_witness_CanChannels_received :
    let f := modCan 3 (fun x => { x with buf := List.replicate 4096 ⟨⟨0, 0, false, false, []⟩, false, false, 0, 0⟩ }) canned
    let p := modCan 3 (fun x => { x with rxErr := 127 }) canned
    let q := modCan 3 (fun x => { x with st := .listen }) canned
    canLive canned 3 = true ∧ canQuiet canned.can[(3 : Fin 4)] = false ∧ canLive q 3 = true ∧
      canQuiet q.can[(3 : Fin 4)] = true ∧ canQuiet f.can[(3 : Fin 4)] = false ∧ canned.can[(3 : Fin 4)].buf.length < 4096 ∧
      p.can[(3 : Fin 4)].rxErr ≤ 127 ∧ canLive f 3 = true ∧ 4096 ≤ f.can[(3 : Fin 4)].buf.length ∧
      f.can[(3 : Fin 4)].ovfRaised = false := by decide +kernel

/-- A request that may start, one cancelled, one with every triad stopped; one on the wire, oneshot and not; one that
expires. -/
theorem test_witness_CanRequests :
    let r : CanReq := ⟨31, ⟨0x123, 8, false, false, []⟩, false, false, false, 4, .vital 0, none, false, false⟩
    let on := fun (r : CanReq) (s : State) => modCan 3 (fun x => { x with reqs := [r] }) s
    let lone := modTriad 0 (fun t => { t with mode := .stopped }) canned
    let w := { r with onWire := true }
    SMap.wf 0 canned.can[(3 : Fin 4)].stat = true ∧ canned.can[(3 : Fin 4)].waiting = [] ∧
      (∀ s ∈ [canned, lone], canMaySend s 3 = true ∧ (∀ y ∈ s.can[(3 : Fin 4)].reqs, y.onWire = false) ∧
        canOffer s 3 = some r) ∧ r.cancel = false ∧ (∀ n : TriadId, formed lone n = false) ∧
      (∃ n : TriadId, formed canned n = true) ∧
      canOffer (on { r with cancel := true } canned) 3 = some { r with cancel := true } ∧
      (on w canned).can[(3 : Fin 4)].reqs.find? (·.onWire) = some w ∧ w.cancel = false ∧ w.oneShot = false ∧
      (on { w with oneShot := true } canned).can[(3 : Fin 4)].reqs.find? (·.onWire) = some { w with oneShot := true } ∧
      canned.can[(3 : Fin 4)].reqs.find? (fun y => y.entry = r.entry && !y.onWire && !y.kept) = some r ∧ r.old = false ∧
      (∀ n : TriadId, formed canned n = true → triadOf canned 0 = some n) ∧
      (on w (modCan 3 (fun x => { x with enTill := 8002000 }) canned)).tb ≤ 8002000 ∧
      (on w canned).can[(3 : Fin 4)].enTill < (on w canned).tb ∧ fld canned.clk.divAct 11 5 ≤ 20 ∧
      r.cyc + 1 ≤ canned.scn.cycle := by decide +kernel

/-- Error counts at 127, 128, 255 and 256. -/
theorem test_witness_CanChannels_errors :
    let at_ := fun (tx rx : Nat) => modCan 3 (fun x => { x with txErr := tx, rxErr := rx }) canned
    (∀ s ∈ [at_ 248 0, at_ 247 0, at_ 120 0, at_ 0 127, at_ 119 126], canLive s 3 = true ∧
      s.can[(3 : Fin 4)].st = .active ∧ canQuiet s.can[(3 : Fin 4)] = false) ∧
      255 < (at_ 248 0).can[(3 : Fin 4)].txErr + 8 ∧ (at_ 247 0).can[(3 : Fin 4)].txErr + 8 ≤ 255 ∧
      127 < (at_ 120 0).can[(3 : Fin 4)].txErr + 8 ∧ 127 < (at_ 0 127).can[(3 : Fin 4)].rxErr + 1 ∧
      (at_ 119 126).can[(3 : Fin 4)].txErr + 8 ≤ 127 ∧ (at_ 119 126).can[(3 : Fin 4)].rxErr + 1 ≤ 127 := by
  decide +kernel

/-- Integration of a channel that only listens, that joins and whose count is above 127; bus-off. -/
theorem test_witness_CanRecovery :
    let i := modCan 3 (fun x => { x with st := .integrating }) live
    let l := modCan 3 (fun x => { x with cfgAct := x.cfgAct ||| 2#5 }) i
    let h := modCan 3 (fun x => { x with txErr := 128 }) i
    let b := modCan 3 (fun x => { x with st := .busOff, recovering := true }) live
    let out := { live with variant := .trv10 }
    absentUnit out (0x5840 + 0x200 * 3) ≠ none ∧ out.absent = [] ∧ absentUnit live (0x5840 + 0x200 * 3) = none ∧
      live.bst.block.toNat ≠ (0x5840 + 0x200 * 3) / 0x800 ∧
      ({ live with bst := { live.bst with block := 11 } }).bst.block.toNat = (0x5840 + 0x200 * 3) / 0x800 ∧
      l.can[(3 : Fin 4)].st = .integrating ∧ canMayRun l 3 = true ∧ bit l.can[(3 : Fin 4)].cfgAct 1 = true ∧
      bit i.can[(3 : Fin 4)].cfgAct 1 = false ∧ i.can[(3 : Fin 4)].txErr ≤ 127 ∧ i.can[(3 : Fin 4)].rxErr ≤ 127 ∧
      h.can[(3 : Fin 4)].st = .integrating ∧ canMayRun h 3 = true ∧ bit h.can[(3 : Fin 4)].cfgAct 1 = false ∧
      127 < h.can[(3 : Fin 4)].txErr ∧
      i.can[(3 : Fin 4)].st = .integrating ∧ canMayRun i 3 = true ∧ b.can[(3 : Fin 4)].st = .busOff ∧
      b.can[(3 : Fin 4)].recovering = true := by decide +kernel

/-- The first and the last word of the mirror that the statement names; a bus that is deaf. -/
theorem test_witness_RackBus_mirror :
    let deaf := { live with clk := { live.clk with gateClosed := 0x40 } }
    let own := { live with rck := { live.rck with ownLast := true } }
    let stb := { live with rck := { live.rck with role := .standby } }
    let pend := { live with clk := { live.clk with gatePend := 0x40 } }
    stb.rck.role = .standby ∧ rackDrives live = true ∧ bit pend.clk.gatePend 6 = true ∧ bit live.clk.gatePend 6 = false ∧
      rackTooFast live = false ∧ live.rck.ownLast = false ∧ own.rck.ownLast = true ∧ bit deaf.clk.gateClosed 6 = true ∧ live.scn.mode ≠ .start ∧ live.scn.mode ≠ .shutdown ∧
      bit live.clk.gateClosed 6 = false ∧ 0x20 % 4 = 0 ∧ 0x20 ≤ 0x20 ∧ 0xBFFC % 4 = 0 ∧ 0xBFFC < 0xC000 := by decide +kernel

/-- The identification words of a partner of type 9, version 2. -/
def partnerWords : List Word :=
  let ws : List Word := [9, 2, 0x40, 4, 0, 0, 0]
  ws ++ [crc32 (ws.flatMap (fun w => leBytes 4 w.toNat))]

/-- A partner in slot 14 that the table knows, one that it does not, one admitted, one that has not lived for its N. -/
theorem test_witness_RackBus_partners :
    let im := { image with io := { IoDesc.blank with rack := [(14, ⟨9, 2, 3, []⟩)] } }
    let on := fun (i : Fin 16) (f : RackPart → RackPart) => modSlot i f { live with olc := live.olc.setActive (some im) }
    let p := on 14 (fun x => { x with st := .present })
    let u := on 13 (fun x => { x with st := .present })
    let a := on 14 (fun x => { x with st := .admitted, matched := true, lifeCnt := 3, inOfs := 0x40, inLen := 4 })
    let n := on 14 (fun x => { x with st := .admitted, matched := true, nackCnt := 2 })
    let q := { p with rck := { p.rck with reqs := 0x4000, ownLast := true } }
    q.rck.reqs ≠ 0 ∧ q.rck.ownLast = true ∧ p.rck.reqs = 0 ∧ p.rck.ownLast = false ∧
      a.rck.parts[(14 : Fin 16)].inOfs = 0x40 ∧ a.rck.parts[(14 : Fin 16)].inLen = 4 * 1 ∧
    partnerWords.length = 8 ∧
      partnerWords.getD 7 0 = crc32 ((partnerWords.flatMap (fun w => leBytes 4 w.toNat)).take 28) ∧
      p.rck.parts[(14 : Fin 16)].st = .present ∧ p.rck.parts[(14 : Fin 16)].matched = false ∧
      rackSlot p 14 = some ⟨9, 2, 3, []⟩ ∧ twinSlot p 14 = false ∧ partnerWords.getD 0 0 = 9 ∧
      (2#32).toNat ≤ (partnerWords.getD 1 0).toNat ∧
      u.rck.parts[(13 : Fin 16)].st = .present ∧ u.rck.parts[(13 : Fin 16)].matched = false ∧ rackSlot u 13 = none ∧
      live.rck.parts[(1 : Fin 16)].st = .absent ∧ p.rck.parts[(14 : Fin 16)].st ≠ .absent ∧
      rackSlot a 14 = some ⟨9, 2, 3, []⟩ ∧ a.rck.parts[(14 : Fin 16)].st = .admitted ∧
      3 ≤ a.rck.parts[(14 : Fin 16)].lifeCnt ∧ n.rck.parts[(14 : Fin 16)].st = .admitted ∧
      2 ≤ n.rck.parts[(14 : Fin 16)].nackCnt := by decide +kernel

/-- An ACTIVE twin in either position, a STANDBY one, and one that waits for its role. -/
theorem test_witness_TwinPulses :
    let act := { live with rck := { live.rck with twinEnAct := true, role := .active } }
    let b := { act with rck := { act.rck with sid := 1 } }
    let stb := { live with rck := { live.rck with twinEnAct := true, role := .standby, peer := true, lock := true } }
    let hold := { live with rck := { live.rck with holdOver := some 5 } }
    let held := { live with rck := { live.rck with holdOver := some 5, holdEmit := some 8001000 } }
    let wait := { live with
      rck := { live.rck with twinEnAct := true }
      scn := { live.scn with mode := .stop } }
    act.rck.role = .active ∧ act.rck.twinEnAct = true ∧ positionB act = false ∧ positionB b = true ∧ b.scn.mode = .run ∧ b.bst.block = 0xFF ∧
      b.err.vq.length < 32 ∧ stb.rck.role = .standby ∧ stb.rck.lock = true ∧ stb.rck.peer = true ∧
      (30 : Int).natAbs ≤ 30 ∧ 30 < (-31 : Int).natAbs ∧ hold.rck.holdOver = some hold.scn.cycle ∧
      hold.rck.holdEmit = none ∧ held.rck.holdOver = some 5 ∧ held.rck.holdEmit = some 8001000 ∧
      wait.rck.twinEnAct = true ∧ wait.rck.role = .single ∧ wait.scn.mode.bounded = true ∧ wait.rck.peer = false := by
  decide +kernel

/-- The invariants hold of the module at work. -/
theorem test_witness_StepsKeepForms : Memory.wf live = true ∧ Maps.wf live = true ∧
    ∃ t, step live = .next t := ⟨by decide +kernel, by decide +kernel, _, rfl⟩

/-! ### A few steps -/

/-- FIRST IN, FIRST OUT, and an empty queue that idles. -/
theorem test_queue : ∀ t, step { live with pending := [.ppsEdge, .xoReturnRequest] } = .next t →
    t.pending = [.xoReturnRequest] ∧ t.clk.pps = BitVec.ofNat 64 live.tb := by
  intro t h; cases h; decide +kernel
theorem test_idle : ∀ t, step live = .next t → t.pending = [] ∧ live.tb ≤ t.tb := by
  intro t h; cases h; decide +kernel

/-- The check values over the digits 1 to 9: CRC-32 as R310 gives it, CRC-64/ECMA-182 as its definition does. -/
theorem test_crc : crc32 [0x31, 0x32, 0x33, 0x34, 0x35, 0x36, 0x37, 0x38, 0x39] = 0xCBF43926#32 ∧
    crc64 [0x31, 0x32, 0x33, 0x34, 0x35, 0x36, 0x37, 0x38, 0x39] = 0x6C40DF5F0B497347#64 := by decide +kernel

/-- POWER_ON begins START with TB at 0. -/
theorem test_power_on : after .powerOn live (fun t => (t.scn.mode, t.tb)) = some (.start, 0) := by decide +kernel

/-- The worked example of file 04: STB G5, 0x12_3456 as commit 500 presents kind 0x1, SUB 0x31, ADDR and VALUE, with the
signature over records 1 and 2; the RET after it presents kind 0x2 over records 3 and 4 too. -/
theorem test_stb_example :
    let s := withRegs 0 [(5, 1)] (modCore 0 (fun k => { k with seq := 500#32 }) live)
    let r12 : List Byte := [0x03, 0x31, 0, 0, 0, 0x12, 0x34, 0x56, 0, 0, 0, 1, 0x05, 0x01, 0, 0, 0, 0, 0x01, 0xF4, 0, 0, 0, 0]
    after (decodeItrel 0 0xE2923456) s (fun t => t.cores[(0 : CoreId)].out) =
      some (some (.commit ⟨1, 500, crc64From 0 r12, 0x31, 0x123456, 1⟩)) := by decide +kernel

theorem test_ret_example :
    let s := modCore 0 (fun k => { k with seq := 501#32, stack := [(9#22, 0x40002C80#32)] }) live
    let r34 : List Byte := [0x02, 0, 0, 0, 0, 0, 0, 0, 0x40, 0, 0x2C, 0x80, 0x05, 0x02, 0, 0, 0, 0, 0x01, 0xF5, 0, 0, 0, 0]
    after (.ret 0) s (fun t => t.cores[(0 : CoreId)].out) =
      some (some (.commit ⟨2, 501, crc64From 0 r34, 0, 0, 0⟩)) := by decide +kernel

/-- The worked example of file 02: lane C has not arrived when its window ends. -/
theorem test_late_lane_example :
    let r := { rec9 with seq := 1207#32 }
    let w : Rel := ⟨r, 8531102, 2, [⟨1, .commit r, 8531042⟩, ⟨0, .commit r, 8531097⟩], none⟩
    let s := modVoter 0 (fun _ => { cur := [], wait := [w] }) live
    after (.lagWindowExpiry 0) s (fun t => (t.tb, t.triads[(0 : TriadId)].mode, t.triads[(0 : TriadId)].odd,
      t.triads[(0 : TriadId)].cap.seq, t.triads[(0 : TriadId)].cap.arrs)) =
      some (8531302, .pair, some 2, 1207, #v[531097, 531042, 0]) := by decide +kernel

/-- The worked example of file 20: CAN_2_STAT of a TRV-10 reads 0 and belongs to an absent unit; so does offset 0x5C44. -/
theorem test_absent_channel_example :
    let s := { live with variant := .trv10 }
    (absentUnit s 0x5C20).isSome = true ∧ (absentUnit s 0x5C44).isSome = true ∧ readReg s 0x5C20 = 0 ∧
      absentUnit live 0x5C20 = none ∧ absentUnit live 0x5C44 = none ∧ readReg live 0x5C44 = 0 := by decide +kernel

end Sys2Proof.Tests
end

section
/-!
SUPPORT. The facts of ch.04 that RET, RDB and RDT need, and the theorems that settle O9 and O17: every word of a core is answered
by `onCore`; a commit point as a change of one core; what the end of a non-vital partition, and its trap, touch and leave.
-/
namespace Sys2Proof.Machine

open Sys2Proof

/-! ### Every instruction word runs on its core (R106 to R110) -/

/-- A command whose whole meaning is an instruction on core `c`: it does nothing while the core does not execute. -/
def RunsOnCore (c : CoreId) (i : Instr) : Prop := ∃ f, ∀ s, exec i s = .next (onCore c f s)

/-- What a format's decoder answers, if anything, is an instruction on core `c`. -/
def DecodesOnCore (c : CoreId) (o : Option Instr) : Prop := ∀ i ∈ o, RunsOnCore c i

theorem decodesOnCore_none (c : CoreId) : DecodesOnCore c none ↔ True := by simp [DecodesOnCore]

theorem decodesOnCore_some (c : CoreId) (i : Instr) : DecodesOnCore c (some i) ↔ RunsOnCore c i := by
  simp [DecodesOnCore]

theorem decodesOnCore_guard (c : CoreId) (p : Prop) [Decidable p] (o : Option Instr) :
    DecodesOnCore c (if p then o else none) ↔ (p → DecodesOnCore c o) := by
  by_cases h : p <;> simp [h, decodesOnCore_none]

theorem DecodesOnCore.getD {c : CoreId} {i : Instr} (hi : RunsOnCore c i) :
    ∀ {o : Option Instr}, DecodesOnCore c o → RunsOnCore c (o.getD i)
  | none, _ => hi
  | some j, h => h j rfl

theorem decodeAlu_onCore (c : CoreId) (w : Word) : DecodesOnCore c (decodeAlu c w) := by
  unfold decodeAlu
  split <;> simp only [decodesOnCore_none, decodesOnCore_some, decodesOnCore_guard]
  all_goals intros; exact ⟨_, fun _ => rfl⟩

theorem decodeSys_onCore (c : CoreId) (w : Word) : DecodesOnCore c (decodeSys c w) := by
  unfold decodeSys
  split <;> simp only [decodesOnCore_none, decodesOnCore_some, decodesOnCore_guard]
  all_goals intros; exact ⟨_, fun _ => rfl⟩

theorem decodeImm_onCore (c : CoreId) (w : Word) : DecodesOnCore c (decodeImm c w) := by
  unfold decodeImm
  split <;> simp only [decodesOnCore_none, decodesOnCore_some, decodesOnCore_guard]
  all_goals intros; exact ⟨_, fun _ => rfl⟩

theorem decodeJ_onCore (c : CoreId) (p : Prop) [Decidable p] (gi : Reg) (target : BitVec 22) :
    DecodesOnCore c (if p then some (.call c gi target) else if gi = 0 then some (.jmp c target) else none) := by
  by_cases h : p <;> simp only [h, if_true, if_false, decodesOnCore_some, decodesOnCore_guard]
  · exact ⟨_, fun _ => rfl⟩
  · exact fun _ => ⟨_, fun _ => rfl⟩

theorem decodeWide_onCore (c : CoreId) (w : Word) : DecodesOnCore c (decodeWide c w) := by
  unfold decodeWide
  split
  case h_1 => exact decodeJ_onCore c _ _ _
  case h_2 =>
    split <;> simp only [decodesOnCore_none, decodesOnCore_some]
    all_goals exact ⟨_, fun _ => rfl⟩
  all_goals simp only [decodesOnCore_none, decodesOnCore_some]
  all_goals exact ⟨_, fun _ => rfl⟩

theorem decodeItrel_runsOnCore (c : CoreId) (w : Word) : RunsOnCore c (decodeItrel c w) := by
  have illegal : RunsOnCore c (.illegalInstruction c w) := ⟨_, fun _ => rfl⟩
  unfold decodeItrel
  refine DecodesOnCore.getD illegal ?_
  split
  · exact decodeAlu_onCore c w
  split
  · exact decodeSys_onCore c w
  split
  · exact decodeImm_onCore c w
  · exact decodeWide_onCore c w

theorem coreCtx_of_not_running {s : State} {c : CoreId} (h : s.cores[c].run ≠ .running) : coreCtx s c = none := by
  unfold coreCtx
  exact if_pos h

/-- R128, R36: a core that waits, or has ended or trapped, does nothing, whatever the word. -/
theorem exec_decodeItrel_idle {s : State} {c : CoreId} (h : s.cores[c].run ≠ .running) (w : Word) :
    exec (decodeItrel c w) s = .next s := by
  obtain ⟨f, hf⟩ := decodeItrel_runsOnCore c w
  rw [hf, onCore_idle (coreCtx_of_not_running h)]

/-! ### Commit points (R36, R126) -/

theorem present_keeps (kind sub : Nat) (addr v : Word) (k : Core) : KeepsCore k (Core.present kind sub addr v k) := rfl

/-- A commit point presents its record after the records fed so far. -/
theorem present_commits {k k' : Core} (kind sub : Nat) (addr v : Word) (recs : List (List Byte))
    (hc : k'.count = k.count + 1) (hq : k'.seq = k.seq) (hs : k'.sig = recs.foldl crc64From k.sig) :
    Commits kind sub addr v recs k (Core.present kind sub addr v k') := by
  unfold Commits Core.present Core.feed
  simp [hc, hq, hs]

/-! ### RET (R117) -/

/-- A core after a RET that pops the entry `(pc, ib)` and leaves `rest`. -/
def Core.returned (vital : Bool) (pc : BitVec 22) (ib : Word) (rest : List (BitVec 22 × Word)) (k : Core) : Core :=
  let k := Core.setIb vital ib { k with pc := pc, stack := rest }
  if vital then Core.present 2 0 0#32 0#32 { k with count := k.count + 1 } else k

theorem exec_ret_pops {s : State} {c : CoreId} {x : CoreCtx} {pc : BitVec 22} {ib : Word} {rest : List (BitVec 22 × Word)}
    (h : Runs s c x) (hk : s.cores[c].stack = (pc, ib) :: rest) :
    exec (.ret c) s = .next (modCore c (Core.returned x.vital pc ib rest) s) := by
  show execRet c s = _
  unfold execRet
  rw [onCore_runs h]
  simp only [hk]
  rfl

theorem exec_ret_ends_vital {s : State} {c : CoreId} {x : CoreCtx} (h : Runs s c x) (hk : s.cores[c].stack = [])
    (hv : x.vital = true) :
    exec (.ret c) s = .next (modCore c (fun k => Core.present 4 0 0#32 0#32 { k with count := k.count + 1 }) s) := by
  show execRet c s = _
  unfold execRet
  rw [onCore_runs h]
  cases hx : x.who with
  | vital t l p => simp only [hk]
  | nonvital n => simp [CoreCtx.vital, hx] at hv

theorem exec_ret_ends_nonvital {s : State} {c : CoreId} {x : CoreCtx} {n : NvId} (h : Runs s c x)
    (hk : s.cores[c].stack = []) (hx : x.who = .nonvital n) : exec (.ret c) s = .next (nvEnd c n .done s) := by
  show execRet c s = _
  unfold execRet
  rw [onCore_runs h]
  simp only [hk, hx]

/-! ### The end of a non-vital partition (R19, R156, R357) -/

theorem nvStartNext_frame (c : CoreId) (s : State) :
    nvStartNext c s = { s with cores := (nvStartNext c s).cores, nvs := (nvStartNext c s).nvs } := by
  unfold nvStartNext
  split
  · rfl
  · dsimp only
    split <;> rfl

theorem nvStartNext_other {c d : CoreId} (h : d ≠ c) (s : State) : (nvStartNext c s).cores[d] = s.cores[d] := by
  unfold nvStartNext
  split
  · exact vupd_get_ne _ h _
  · dsimp only
    split <;> exact vupd_get_ne _ h _

/-- Only the partition at the head of the core's queue starts. -/
theorem nvStartNext_nv {c : CoreId} {n : NvId} {s : State} (h : n ∉ s.cores[c].nvIdle) :
    (nvStartNext c s).nvs[n] = s.nvs[n] := by
  unfold nvStartNext
  split
  · rfl
  next m rest hq =>
    have hne : n ≠ m := fun e => h (by rw [hq, e]; exact List.mem_cons_self)
    dsimp only
    split <;> exact vupd_get_ne _ hne _

/-- A change of the CAN channels and of the draws of free values at most. -/
def OnlyCan (s t : State) : Prop := t = { s with can := t.can, freeDraws := t.freeDraws }

theorem OnlyCan.trans {s t u : State} (h : OnlyCan s t) (k : OnlyCan t u) : OnlyCan s u := by
  unfold OnlyCan at *
  rw [k, h]

theorem onlyCan_forEach {α : Type} {f : α → State → State} (h : ∀ x s, OnlyCan s (f x s)) :
    ∀ (l : List α) (s : State), OnlyCan s (forEach l f s)
  | [], _ => rfl
  | x :: l, s => (h x s).trans (onlyCan_forEach h l (f x s))

theorem onlyCan_canMeasure (ch : Fin 4) (r : CanReq) (past : Option Bool) (s : State) :
    OnlyCan s (canMeasure ch r past s) := by
  unfold canMeasure
  split
  · dsimp only
    split <;> rfl
  · rfl

theorem onlyCan_canCutOff (hit : CanReq → Bool) (ch : Fin 4) (s : State) : OnlyCan s (canCutOff hit ch s) := by
  unfold canCutOff
  split
  · split
    · exact onlyCan_canMeasure _ _ _ s
    · rfl
  · rfl

theorem onlyCan_modCan (ch : Fin 4) (f : Can → Can) (s : State) : OnlyCan s (modCan ch f s) := rfl

theorem onlyCan_canWithdraw (mine : CanOwner → Bool) (s : State) : OnlyCan s (canWithdraw mine s) :=
  onlyCan_forEach (fun ch s => (onlyCan_canCutOff (fun r => mine r.owner) ch s).trans (onlyCan_modCan ch _ _)) _ s

/-- What precedes the start of the next partition: the one that ends takes its state, and one that stops loses its CAN
requests. -/
def nvClosed (c : CoreId) (n : NvId) (st : NvSt) (s : State) : State :=
  let s := modNv n (fun x => { x with st := st, last := usSince s.cores[c].nvSince s.tb }) s
  if st = .stopped then canWithdraw (· = .nonvital n) s else s

theorem nvEnd_eq (c : CoreId) (n : NvId) (st : NvSt) (s : State) :
    nvEnd c n st s = nvStartNext c (nvClosed c n st s) := rfl

theorem nvClosed_frame (c : CoreId) (n : NvId) (st : NvSt) (s : State) : nvClosed c n st s =
    { s with nvs := vupd s.nvs n (fun x => { x with st := st, last := usSince s.cores[c].nvSince s.tb }),
             can := (nvClosed c n st s).can, freeDraws := (nvClosed c n st s).freeDraws } := by
  unfold nvClosed
  dsimp only
  split
  · exact onlyCan_canWithdraw _ _
  · rfl

theorem nvEnd_frame (c : CoreId) (n : NvId) (st : NvSt) (s : State) : nvEnd c n st s =
    { s with cores := (nvEnd c n st s).cores, nvs := (nvEnd c n st s).nvs, can := (nvEnd c n st s).can,
             freeDraws := (nvEnd c n st s).freeDraws } := by
  rw [nvEnd_eq, nvStartNext_frame, nvClosed_frame]

theorem nvEnd_st {c : CoreId} {n : NvId} {s : State} (h : n ∉ s.cores[c].nvIdle) (st : NvSt) :
    (nvEnd c n st s).nvs[n].st = st := by
  rw [nvEnd_eq, nvStartNext_nv (by rw [nvClosed_frame]; exact h), nvClosed_frame, vupd_get_self]

theorem nvEnd_other {c d : CoreId} (h : d ≠ c) (n : NvId) (st : NvSt) (s : State) :
    (nvEnd c n st s).cores[d] = s.cores[d] := by
  rw [nvEnd_eq, nvStartNext_other h, nvClosed_frame]

/-- R117: the last RET of a non-vital partition withdraws nothing. -/
theorem nvEnd_done_frame (c : CoreId) (n : NvId) (s : State) :
    nvEnd c n .done s = { s with cores := (nvEnd c n .done s).cores, nvs := (nvEnd c n .done s).nvs } := by
  rw [nvEnd_eq, nvStartNext_frame]
  rfl

/-- Settles O9: a core that does not execute is idle for every word, and RET by whether the stack has an entry. -/
theorem returns : Obligations.Returns := by
  unfold Obligations.Returns
  refine ⟨fun s c w h => ⟨s, exec_decodeItrel_idle h w, rfl⟩, fun s c x h => ⟨?pops, ?endsVital, ?endsNonvital⟩⟩
  case pops =>
    intro pc ib rest hk
    refine ⟨_, exec_ret_pops h hk, modCore_onlyCore _ _ _, ?_⟩
    rw [modCore_core]
    cases x.vital with
    | true => exact ⟨rfl, rfl, rfl, present_commits 2 0 0 0 [recBytes 2 0 0 ib] rfl rfl rfl⟩
    | false => exact ⟨rfl, rfl, rfl, rfl, rfl, rfl, rfl⟩
  case endsVital =>
    intro hk hv
    refine ⟨_, exec_ret_ends_vital h hk hv, modCore_onlyCore _ _ _, ?_⟩
    rw [modCore_core]
    exact ⟨rfl, rfl, present_keeps 4 0 0 0 _, present_commits 4 0 0 0 [] rfl rfl rfl⟩
  case endsNonvital =>
    intro hk n hx hn
    exact ⟨_, exec_ret_ends_nonvital h hk hx, nvEnd_st hn .done, nvEnd_done_frame c n s, fun d hd => nvEnd_other hd n .done s⟩

/-! ### Raising a NONVITAL event (R458, R466) -/

theorem insEvRev_mem (e : QEv) : ∀ l : List QEv, e ∈ insEvRev e l
  | [] => List.mem_cons_self
  | x :: l => by
    unfold insEvRev
    split
    · exact List.mem_cons_of_mem x (insEvRev_mem e l)
    · exact List.mem_cons_self

theorem insEv_mem (e : QEv) (q : List QEv) : e ∈ insEv e q := List.mem_reverse.2 (insEvRev_mem e q.reverse)

theorem Aside.trans {s t u : State} (h : Aside s t) (k : Aside t u) : Aside s u := by
  unfold Aside at *
  rw [k, h]

/-- Counting an event changes its counts alone, and no queue. -/
theorem countEv_keeps (code : Nat) (s : State) :
    Aside s (countEv code s) ∧ (countEv code s).err.nq = s.err.nq := by
  unfold countEv
  cases evClass code
  all_goals
    dsimp only
    repeat' split
  all_goals exact ⟨rfl, rfl⟩

theorem queueNv_aside (e : QEv) (s : State) : Aside s (queueNv e s) := by
  unfold queueNv
  split <;> rfl

theorem queueNv_mem {e : QEv} {s : State} (h : s.err.nq.length < 64) : e ∈ (queueNv e s).err.nq := by
  unfold queueNv
  rw [if_pos h]
  exact insEv_mem e _

theorem nvEventFor_aside (code : Nat) (who : Byte) (a b : Word) (s : State) : Aside s (nvEventFor code who a b s) := by
  unfold nvEventFor
  split
  · rfl
  · exact (countEv_keeps code s).1.trans (queueNv_aside _ _)

theorem nvEventFor_raised (code : Nat) (who : Byte) (a b : Word) (s : State) :
    RaisedNv code who a b s (nvEventFor code who a b s) := by
  intro hm hq
  unfold nvEventFor
  rw [if_neg (by simp [hm])]
  exact queueNv_mem (by rw [(countEv_keeps code s).2]; exact hq)

/-! ### The trap of a non-vital partition (R132) -/

/-- TRI_NVTRAP after a trap: it takes the trap unless it holds one. -/
def nvCaptured (c : CoreId) (n : NvId) (code : Nat) (addr : Word) (s : State) : State :=
  if s.tri.nvTrapValid then s else { s with tri := { s.tri with
    nvTrapValid := true, nvTrapCore := BitVec.ofNat 4 c.val, nvTrapPart := BitVec.ofNat 3 n.val,
    nvTrapCode := BitVec.ofNat 8 code, nvTrapPc := s.cores[c].pc, nvTrapAddr := addr, nvTrapCyc := w32 s.scn.cycle } }

theorem nvTrap_eq (c : CoreId) (n : NvId) (code : Nat) (addr : Word) (s : State) :
    nvTrap c n code addr s = nvEnd c n .stopped (nvEventFor Ev.nvTrap (nvWho n) (w32 c.val) (s.cores[c].pc.setWidth 32)
      (nvCaptured c n code addr s)) := rfl

theorem nvCaptured_frame (c : CoreId) (n : NvId) (code : Nat) (addr : Word) (s : State) :
    nvCaptured c n code addr s = { s with tri := (nvCaptured c n code addr s).tri } := by
  unfold nvCaptured
  split <;> rfl

theorem nvCaptured_code {s : State} (h : s.tri.nvTrapValid = false) (c : CoreId) (n : NvId) (code : Nat) (addr : Word) :
    (nvCaptured c n code addr s).tri.nvTrapCode = BitVec.ofNat 8 code := by
  unfold nvCaptured
  rw [if_neg (by simp [h])]

theorem nvTrap_stopped {s : State} {c : CoreId} {n : NvId} (h : n ∉ s.cores[c].nvIdle) (code : Nat) (addr : Word) :
    (nvTrap c n code addr s).nvs[n].st = .stopped := by
  rw [nvTrap_eq]
  refine nvEnd_st ?_ .stopped
  rw [nvEventFor_aside, nvCaptured_frame]
  exact h

theorem nvTrap_code {s : State} (h : s.tri.nvTrapValid = false) (c : CoreId) (n : NvId) (code : Nat) (addr : Word) :
    (nvTrap c n code addr s).tri.nvTrapCode = BitVec.ofNat 8 code := by
  rw [nvTrap_eq, nvEnd_frame, nvEventFor_aside]
  exact nvCaptured_code h c n code addr

theorem nvTrap_raised (c : CoreId) (n : NvId) (code : Nat) (addr : Word) (s : State) :
    RaisedNv Ev.nvTrap (nvWho n) (w32 c.val) (s.cores[c].pc.setWidth 32) s (nvTrap c n code addr s) := by
  have raised := nvEventFor_raised Ev.nvTrap (nvWho n) (w32 c.val) (s.cores[c].pc.setWidth 32)
    (nvCaptured c n code addr s)
  rw [nvTrap_eq, nvEnd_frame]
  rw [nvCaptured_frame] at raised ⊢
  exact raised

theorem takeTrap_nonvital {x : CoreCtx} {n : NvId} (h : x.who = .nonvital n) (c : CoreId) (code : Nat) (addr : Word)
    (s : State) : takeTrap c x code addr s = nvTrap c n code addr s := by
  unfold takeTrap
  rw [h]

/-! ### RDB and RDT (R121, R122) -/

theorem rdb_wrote {s : State} {c : CoreId} {x : CoreCtx} (h : Runs s c x) (d : Reg) {sel : Reg} (hs : sel.val < 6) :
    Gives (.rdb c d sel) s (Wrote c x d (rdbValue x s sel.val) s) :=
  ⟨_, rfl, trapOp_wrote h d _ _ (if_pos hs)⟩

theorem exec_rdb_illegal {s : State} {c : CoreId} {x : CoreCtx} (h : Runs s c x) (d : Reg) {sel : Reg}
    (hs : 6 ≤ sel.val) : exec (.rdb c d sel) s = .next (takeTrap c x Ev.illegal 0#32 s) :=
  congrArg Host.Outcome.next (trapOp_traps h d _ _ Ev.illegal 0#32 (if_neg (Nat.not_lt.2 hs)))

theorem rdt_priv {s : State} {c : CoreId} {x : CoreCtx} (h : Runs s c x) (hv : x.vital = true) (d sel : Reg) :
    Gives (.rdt c d sel) s (TrapsVital c Ev.priv 0#32 s) := by
  refine ⟨_, rfl, ?_⟩
  rw [trapOp_traps h d _ _ Ev.priv 0#32 (if_pos hv)]
  exact takeTrap_vital c x Ev.priv 0#32 s hv

theorem rdt_wrote {s : State} {c : CoreId} {x : CoreCtx} (h : Runs s c x) (hv : x.vital = false) (d : Reg) {sel : Reg}
    (hs : sel.val < 2) :
    Gives (.rdt c d sel) s (Wrote c x d (w32 (if sel.val = 0 then s.tb else s.tb / 2 ^ 32)) s) :=
  ⟨_, rfl, trapOp_wrote h d _ _ (by rw [if_neg (by simp [hv]), if_pos hs])⟩

/-- Settles O17: RDB by whether the selector is below 6, RDT by whether the partition is vital. -/
theorem systemReads : Obligations.SystemReads := by
  unfold Obligations.SystemReads
  intro s c x d h
  refine ⟨rdb_wrote h d (by decide), rdb_wrote h d (by decide), rdb_wrote h d (by decide), rdb_wrote h d (by decide),
    rdb_wrote h d (by decide), rdb_wrote h d (by decide),
    fun sel hs => ⟨?illegalVital, ?illegalNonvital⟩, fun hv sel => rdt_priv h hv d sel, ?live⟩
  case illegalVital =>
    intro hv
    exact ⟨_, exec_rdb_illegal h d hs, takeTrap_vital c x Ev.illegal 0#32 s hv⟩
  case illegalNonvital =>
    intro n hx hn
    refine ⟨_, exec_rdb_illegal h d hs, ?_⟩
    rw [takeTrap_nonvital hx, hx]
    exact ⟨nvTrap_stopped hn Ev.illegal 0#32, fun hc => nvTrap_code hc c n Ev.illegal 0#32, nvTrap_raised c n Ev.illegal 0#32 s⟩
  case live =>
    intro hv
    exact ⟨rdt_wrote h hv d (by decide), rdt_wrote h hv d (by decide)⟩

end Sys2Proof.Machine
end
